-- ==== Sys2Proof/Word.lean ====
section
/-! DEFINITION. The bit vectors of the block: 00_scope.md rule R12 (every value is unsigned). -/

namespace Sys2Proof

/-- A command word or a response word, 32 bits (30_encoding.md R61, R66). -/
abbrev Word := BitVec 32

/-- Half of a level-multiplex word, HALF = 16 bits: a channel mask, or the line levels (00_scope.md R8). -/
abbrev Half := BitVec 16

/-- The throttle operand of the command port, THR_W = 16 bits (00_scope.md R8). -/
abbrev Throttle := BitVec 16

/-- The protocol frame, PACKET_BITS = 16 bits (30_encoding.md R67). -/
abbrev Frame := BitVec 16

/-- A channel identifier as the CH field carries it, 4 bits (30_encoding.md R61). -/
abbrev Channel := BitVec 4

/-- A destination identifier, DST_W = 32 bits, opaque (00_scope.md R8). -/
abbrev Dest := BitVec 32

/-- A count of entries, REM_W = 16 bits (00_scope.md R8). -/
abbrev Count := BitVec 16

/-- A table entry at the larger ENTRY_W, 32 bits: a level-multiplex word, or a duty entry in the low DUTY_W = 16
bits under zeros (00_scope.md R9; DESIGN CHOICE, safe, notes/assumptions/9.md). -/
abbrev Entry := BitVec 32

end Sys2Proof
end

