-- ==== Sys2Proof/Syntax.lean ====
section
/-! DEFINITION. The commands of the block, one constructor per row of spec/opcode_table.json (30_encoding.md R63). -/

namespace Sys2Proof

/-- A command. Every operand has the width of its field in the command word (30_encoding.md R61, R62). -/
inductive Instr where
  /-- INIT: latch the configuration ports (43_init.md R150). -/
  | init
  /-- ENCODE thr: answer the frame of a throttle value (40_frame_encoder.md R86). -/
  | encode (thr : Throttle)
  /-- LOAD ch, thr: write a channel's waveform into its table (41_waveform_table.md R100). -/
  | load (ch : Channel) (thr : Throttle)
  /-- SEND ch: start a transfer of a channel's table (42_admission.md R130). -/
  | send (ch : Channel)
  deriving DecidableEq, Repr

end Sys2Proof
end

