-- ==== Sys2Proof/Decode.lean ====
section
/-! DEFINITION. Decoding and encoding of the 32-bit command word (30_encoding.md R61 to R65). -/

namespace Sys2Proof

/-- Why a command word is illegal (30_encoding.md R64). -/
inductive DecodeError where
  /-- The field Z, bits [23:16], is not zero. -/
  | zFieldNotZero
  /-- OP, bits [31:28], is 0x0 or 0x5 to 0xF. -/
  | noSuchOperation
  /-- CH, bits [27:24], is not zero in an INIT or an ENCODE. -/
  | channelNotZero
  /-- THR, bits [15:0], is not zero in an INIT or a SEND. -/
  | throttleNotZero
  deriving DecidableEq, Repr

/-- OP, bits [31:28] of a command word (30_encoding.md R61). -/
def fieldOp (w : Word) : BitVec 4 := w.extractLsb' 28 4

/-- CH, bits [27:24] of a command word (30_encoding.md R61). -/
def fieldCh (w : Word) : Channel := w.extractLsb' 24 4

/-- Z, bits [23:16] of a command word, which must be zero (30_encoding.md R61). -/
def fieldZ (w : Word) : BitVec 8 := w.extractLsb' 16 8

/-- THR, bits [15:0] of a command word (30_encoding.md R61). -/
def fieldThr (w : Word) : Throttle := w.extractLsb' 0 16

/-- INIT has CH = 0 and THR = 0 (30_encoding.md R65). -/
def decodeInit (ch : Channel) (thr : Throttle) : Except DecodeError Instr :=
  if ch ≠ 0 then .error .channelNotZero
  else if thr ≠ 0 then .error .throttleNotZero
  else .ok .init

/-- ENCODE has CH = 0 (30_encoding.md R65). -/
def decodeEncode (ch : Channel) (thr : Throttle) : Except DecodeError Instr :=
  if ch ≠ 0 then .error .channelNotZero else .ok (.encode thr)

/-- SEND has THR = 0 (30_encoding.md R65). -/
def decodeSend (ch : Channel) (thr : Throttle) : Except DecodeError Instr :=
  if thr ≠ 0 then .error .throttleNotZero else .ok (.send ch)

/-- The decoder, total on every 32-bit word, in the order of 30_encoding.md R65: Z first, then OP. -/
def decode (w : Word) : Except DecodeError Instr :=
  if fieldZ w ≠ 0 then .error .zFieldNotZero
  else if fieldOp w = 0x1#4 then decodeInit (fieldCh w) (fieldThr w)
  else if fieldOp w = 0x2#4 then decodeEncode (fieldCh w) (fieldThr w)
  else if fieldOp w = 0x3#4 then .ok (.load (fieldCh w) (fieldThr w))
  else if fieldOp w = 0x4#4 then decodeSend (fieldCh w) (fieldThr w)
  else .error .noSuchOperation

/-- A command word from its fields, `{OP, CH, 0x00, THR}` (30_encoding.md R65). -/
def commandWord (op : BitVec 4) (ch : Channel) (thr : Throttle) : Word :=
  op ++ ch ++ 0#8 ++ thr

/-- The word of a command (30_encoding.md R63, R72). -/
def encode : Instr → Word
  | .init => commandWord 0x1#4 0 0
  | .encode thr => commandWord 0x2#4 0 thr
  | .load ch thr => commandWord 0x3#4 ch thr
  | .send ch => commandWord 0x4#4 ch 0

/-- The command word that stands in the low `nbits` bits of `w`, numbered as spec/opcode_table.json numbers them; the
bits above are 0. A command is one 32-bit word (30_encoding.md R61). -/
def tableWord (nbits w : Nat) : Word := BitVec.ofNat 32 (w % 2 ^ nbits)

/-- The instruction the decoder reads from the bits `w` of a row of spec/opcode_table.json. -/
def decodeTableWord (nbits w : Nat) : Option Instr :=
  match decode (tableWord nbits w) with
  | .ok i => some i
  | .error _ => none

end Sys2Proof
end

