-- ==== Sys2Proof/Config.lean ====
section
/-! DEFINITION. What an instance of the block fixes: the constants of 00_scope.md R7, the parameters of R8, the derived
sizes of R9, and the free value of notes/assumptions/11.md. -/

namespace Sys2Proof

/-- The output strategy, fixed for the life of an instance (00_scope.md R8 STRATEGY). -/
inductive Strategy where
  | duty
  | levelMux
  deriving DecidableEq, Repr

/-- The two duration constants of the duty strategy for one speed class (00_scope.md R8 CAL). -/
structure Cal where
  short : BitVec 16
  long : BitVec 16
  deriving DecidableEq, Repr

/-- The parameters the spec leaves to the instance (00_scope.md R8). `cal0`, `cal1`, `cal2` are CAL at the three speed
classes; `rise0` to `fall1` are the edge sub-slots. -/
structure Params where
  strategy : Strategy
  nch : Nat
  gap : Nat
  cal0 : Cal
  cal1 : Cal
  cal2 : Cal
  rise0 : Nat
  fall0 : Nat
  rise1 : Nat
  fall1 : Nat
  deriving DecidableEq, Repr

/-- PACKET_BITS, the bits of a frame (00_scope.md R7). -/
abbrev packetBits : Nat := 16

/-- SLOTS, the sub-slots of one protocol bit (00_scope.md R7). -/
abbrev slotsPerBit : Nat := 8

/-- The pair (SHORT, LONG) at the code 3 of CFG.SPEED, which names no speed class: a FREE VALUE. No accepted INIT
latches that code (43_init.md R151), so no run reads it (notes/assumptions/11.md). -/
opaque Config.calOfNoClass : BitVec 16 × BitVec 16

/-- The reference values of 00_scope.md R8 for the duty strategy. Used by `State.reset` only (DESIGN CHOICE, unsafe,
notes/assumptions/1.md): no rule and no statement rests on them. -/
def Config.referenceDuty : Params where
  strategy := .duty
  nch := 1
  gap := 1
  cal0 := ⟨20, 40⟩
  cal1 := ⟨20, 40⟩
  cal2 := ⟨20, 40⟩
  rise0 := 3
  fall0 := 6
  rise1 := 0
  fall1 := 6

end Sys2Proof
end

