-- ==== Sys2Proof/Machine/State.lean ====
section
/-! DEFINITION. The state of one instance of the block and its reset values (10_state.md R20 to R33), the output resource and
the observation beside it, and the inputs the two agents still make. Plain data throughout. -/

namespace Sys2Proof.Machine

/-- The statuses of a response (60_exceptions.md R160; 30_encoding.md R66: the codes 5 to 7 are never produced). -/
inductive Status where
  | ok
  | configRejected
  | channelRejected
  | busyRejected
  | illegalCmd
  deriving DecidableEq, Repr

/-- An address of the table memory, the pair (t, i) of a table index and an entry index (20_memory.md R40). -/
structure Addr where
  table : Nat
  index : Nat
  deriving DecidableEq, Repr

/-- The order of addresses: by table, then by entry. -/
abbrev Addr.lt (a b : Addr) : Prop := a.table < b.table ∨ (a.table = b.table ∧ a.index < b.index)

/-- One listed entry of the table memory. -/
abbrev TableCell := Addr × Entry

/-- The table memory TBL (10_state.md R25) as the list of its entries that are not 0, addresses strictly rising. An
unlisted entry reads as 0, the value reset and INIT give every entry (10_state.md R32; notes/assumptions/8.md). -/
abbrev Memory := List TableCell

/-- The configuration record CFG (10_state.md R23). Bit c of `en` is CFG.EN[c]; entries for c ≥ NCH are no state of the
block and keep their reset value 0 (notes/assumptions/13.md). -/
structure CfgRecord where
  speed : BitVec 2
  en : BitVec 16
  dst : Vector Dest 16
  mask : Vector Half 16
  deriving DecidableEq, Repr

/-- The values on the configuration ports (30_encoding.md R60, R73), which the host drives. -/
structure CfgPorts where
  speed : BitVec 2
  en : BitVec 16
  dst : Vector Dest 16
  mask : Vector Half 16
  deriving DecidableEq, Repr

/-- The status outputs at a moment the host samples them (00_scope.md R15). -/
structure Sample where
  busy : Bool
  inited : Bool
  rem : Count
  deriving DecidableEq, Repr

/-- One move of the environment or of an agent of the block (00_scope.md R10, R15, R16). -/
inductive Move where
  /-- The host presents a command word (`cmd_valid` = 1) and holds it until it is accepted. -/
  | command (w : Word)
  /-- The next micro-step of the LOAD in progress (41_waveform_table.md R116). -/
  | advance
  /-- The output resource's DRAIN step (42_admission.md R135). -/
  | drain
  /-- The host drives the configuration ports (30_encoding.md R73). -/
  | drivePorts (p : CfgPorts)
  /-- The host samples `busy`, `inited` and `rem` (00_scope.md R15). -/
  | sample
  /-- The host asserts `rst` (70_reset_and_hazards.md R180). -/
  | assertReset
  deriving DecidableEq, Repr

/-- The state of one instance of the block (10_state.md), of its output resource (R26), of its ports (30_encoding.md R60)
and of the observation (00_scope.md R15). -/
structure State where
  /-- The parameters of the instance (00_scope.md R8). The MODEL's own field: no step writes it. -/
  par : Params
  /-- INITED (R22). -/
  inited : Bool
  /-- CFG (R23). -/
  cfg : CfgRecord
  /-- TBL (R25). -/
  tbl : Memory
  /-- OR_EN (R26). -/
  orEn : Bool
  /-- OR_SRC (R26). -/
  orSrc : BitVec 4
  /-- OR_DST (R26). -/
  orDst : Dest
  /-- OR_LEN (R26). -/
  orLen : Count
  /-- REM (R26). -/
  rem : Count
  /-- LD_ACTIVE (R28). -/
  ldActive : Bool
  /-- LD_CH (R28). -/
  ldCh : Channel
  /-- LD_FRAME (R28). -/
  ldFrame : Frame
  /-- LD_IDX (R28). -/
  ldIdx : BitVec 8
  /-- OUT (R30), oldest first. -/
  out : List (Dest × Entry)
  /-- The configuration input ports (30_encoding.md R60, R73). -/
  ports : CfgPorts
  /-- The response port: `none` is `rsp_valid` = 0, `some w` presents `rsp_word` = w in the step just made (R60). -/
  rsp : Option Word
  /-- Every response word so far, oldest first (00_scope.md R15). The MODEL's own field. -/
  responses : List Word
  /-- Every sample of the status outputs so far, oldest first (00_scope.md R15). The MODEL's own field. -/
  samples : List Sample
  /-- The moves still to be made, next first (00_scope.md R10, R16). The MODEL's own field. -/
  moves : List Move
  deriving DecidableEq, Repr

/-- Why the machine stops: it does not. No rule has an out-of-range arm (20_memory.md R44), every command is answered, and a
rejection is a response (60_exceptions.md R161). So there is no constructor, and nothing raises one. Safe. -/
inductive Fault where
  deriving DecidableEq, Repr

/-- Why the machine gives an instruction no meaning. -/
inductive Refusal where
  /-- The instruction has no meaning yet. Raised by no arm: every command of the table is modelled. Safe. -/
  | notModelled (mnemonic : String)
  deriving DecidableEq, Repr

/-- CFG after reset: every field 0 (10_state.md R32). -/
def CfgRecord.zero : CfgRecord where
  speed := 0
  en := 0
  dst := Vector.replicate 16 0
  mask := Vector.replicate 16 0

/-- The configuration ports with nothing driven (DESIGN CHOICE, unsafe: notes/assumptions/7.md). -/
def CfgPorts.zero : CfgPorts where
  speed := 0
  en := 0
  dst := Vector.replicate 16 0
  mask := Vector.replicate 16 0

/-- The state after reset of an instance with the parameters `p` (10_state.md R32; 70_reset_and_hazards.md R180). -/
def State.resetOf (p : Params) : State where
  par := p
  inited := false
  cfg := CfgRecord.zero
  tbl := []
  orEn := false
  orSrc := 0
  orDst := 0
  orLen := 0
  rem := 0
  ldActive := false
  ldCh := 0
  ldFrame := 0
  ldIdx := 0
  out := []
  ports := CfgPorts.zero
  rsp := none
  responses := []
  samples := []
  moves := []

/-- The state right after reset, of the instance with the duty reference values (notes/assumptions/1.md). -/
def State.reset : State := State.resetOf Config.referenceDuty

end Sys2Proof.Machine
end

