-- ==== Sys2Proof/Machine/Flags.lean ====
section
/-! DEFINITION. The conditions a host can observe and the handshake (10_state.md R27, R29; 30_encoding.md R60). The block has no
condition codes and no sticky status. -/

namespace Sys2Proof.Machine

/-- BUSY, the output `busy`: REM ≠ 0 (10_state.md R27). -/
def State.busy (s : State) : Bool := s.rem != 0

/-- Idle, the source's `is-idle()`: REM = 0 (10_state.md R27; 42_admission.md R133). -/
def State.idle (s : State) : Bool := s.rem == 0

/-- `cmd_ready`: 0 while LD_ACTIVE = 1 (30_encoding.md R60). -/
def State.cmdReady (s : State) : Bool := !s.ldActive

/-- `rsp_valid` (30_encoding.md R60). -/
def State.rspValid (s : State) : Bool := s.rsp.isSome

/-- A DRAIN step is enabled exactly when OR_EN = 1 and REM ≠ 0 (42_admission.md R135). -/
def State.drainEnabled (s : State) : Bool := s.orEn && s.rem != 0

/-- The outputs `busy`, `inited` and `rem` as the host samples them (00_scope.md R15). -/
def State.outputs (s : State) : Sample := ⟨s.busy, s.inited, s.rem⟩

end Sys2Proof.Machine
end

