-- ==== Sys2Proof/Machine/Operands.lean ====
section
/-! DEFINITION. What the commands compute from the parameters and the configuration record: the derived sizes of
00_scope.md R9, the speed class's durations (41_waveform_table.md R103), the edge sub-slots (R109), and `enabled`, `ENMASK`
and `tbl` (10_state.md R24, R25). -/

namespace Sys2Proof.Machine

/-- LEN, the table's full length in entries (00_scope.md R9). -/
def tableLen (p : Params) : Nat :=
  match p.strategy with
  | .duty => packetBits + p.gap
  | .levelMux => (packetBits + p.gap) * slotsPerBit

/-- NTBL, the number of tables (00_scope.md R9). -/
def tableCount (p : Params) : Nat :=
  match p.strategy with
  | .duty => p.nch
  | .levelMux => 1

/-- K, the number of entry writes of a LOAD, which is also the index of the first gap entry (41_waveform_table.md R105,
R113, R116). -/
def loadWrites (p : Params) : Nat :=
  match p.strategy with
  | .duty => packetBits
  | .levelMux => packetBits * slotsPerBit

/-- tbl(c), the index of the table of channel c (10_state.md R25). -/
def tableOf (p : Params) (c : Channel) : Nat :=
  match p.strategy with
  | .duty => c.toNat
  | .levelMux => 0

/-- CFG.DST[c] (10_state.md R23). -/
def CfgRecord.dstOf (g : CfgRecord) (c : Channel) : Dest := g.dst[c.toNat]'c.isLt

/-- CFG.MASK[c] (10_state.md R23). -/
def CfgRecord.maskOf (g : CfgRecord) (c : Channel) : Half := g.mask[c.toNat]'c.isLt

/-- CFG.EN[c] (10_state.md R23). -/
def CfgRecord.enOf (g : CfgRecord) (c : Channel) : Bool := g.en.getLsbD c.toNat

/-- enabled(c): c < NCH and CFG.EN[c] = 1 (10_state.md R24). -/
def enabled (p : Params) (g : CfgRecord) (c : Channel) : Bool := decide (c.toNat < p.nch) && g.enOf c

/-- The channel identifiers a command can carry, 0 to 15 (30_encoding.md R61). -/
def allChannels : List Channel := (List.range 16).map (BitVec.ofNat 4)

/-- ENMASK, the OR of the masks of the enabled channels (10_state.md R24). -/
def enMask (p : Params) (g : CfgRecord) : Half :=
  allChannels.foldl (fun m c => if enabled p g c then m ||| g.maskOf c else m) 0

/-- (SHORT, LONG) = CAL(CFG.SPEED) (41_waveform_table.md R103). The code 3 names no speed class: a free value
(notes/assumptions/11.md). -/
def calOf (p : Params) (speed : BitVec 2) : BitVec 16 × BitVec 16 :=
  if speed = 0 then (p.cal0.short, p.cal0.long)
  else if speed = 1 then (p.cal1.short, p.cal1.long)
  else if speed = 2 then (p.cal2.short, p.cal2.long)
  else Config.calOfNoClass

/-- RISE_v, the sub-slot at which the line of a protocol bit of value v rises (41_waveform_table.md R109). -/
def riseSlot (p : Params) (v : Bool) : Nat := if v then p.rise1 else p.rise0

/-- FALL_v, the later sub-slot at which it falls (41_waveform_table.md R109). -/
def fallSlot (p : Params) (v : Bool) : Nat := if v then p.fall1 else p.fall0

/-- Protocol bit-index b of a frame is frame bit 15 − b: most significant first (41_waveform_table.md R102). -/
def protocolBit (f : Frame) (b : Nat) : Bool := f.getLsbD (packetBits - 1 - b)

end Sys2Proof.Machine
end

