-- ==== Sys2Proof/Machine/Ops.lean ====
section
/-! DEFINITION. The primitives of 00_scope.md R13: `TBL[t][i]` and `TBL[t][i] <- v`, `respond`, `reject` and `emit`.
`reject` is the block's one way to turn a command away (60_exceptions.md R161); nothing is entered, so there is no return
from it (R168, R169). -/

namespace Sys2Proof.Machine

/-- The value of an entry: what is listed, and 0 if nothing is (10_state.md R32). -/
def Memory.get : Memory → Addr → Entry
  | [], _ => 0
  | (b, v) :: m, a => if a = b then v else Memory.get m a

/-- The memory with one entry written, in canonical form: a written 0 is not listed. -/
def Memory.put : Memory → Addr → Entry → Memory
  | [], a, v => if v = 0 then [] else [(a, v)]
  | (b, w) :: m, a, v =>
    if a.lt b then (if v = 0 then (b, w) :: m else (a, v) :: (b, w) :: m)
    else if a = b then (if v = 0 then m else (a, v) :: m)
    else (b, w) :: Memory.put m a v

/-- The canonical form: addresses strictly rising, and no entry listed that is 0 (notes/assumptions/8.md). -/
abbrev Memory.wf (m : Memory) : Prop :=
  List.Pairwise (fun c d => c.1.lt d.1) m ∧ ∀ c ∈ m, c.2 ≠ 0

/-- One whole entry of the table memory is read (20_memory.md R45). No check of the index: every index a rule computes is in
range (20_memory.md R44; notes/assumptions/10.md). -/
def readEntry (s : State) (t i : Nat) : Entry := s.tbl.get ⟨t, i⟩

/-- One whole entry of the table memory is written (20_memory.md R45). No check of the index: every index a rule computes is in
range (20_memory.md R44; notes/assumptions/10.md). -/
def writeEntry (s : State) (t i : Nat) (v : Entry) : State := { s with tbl := s.tbl.put ⟨t, i⟩ v }

/-- The code of a status (60_exceptions.md R160). -/
def Status.code : Status → BitVec 3
  | .ok => 0
  | .configRejected => 1
  | .channelRejected => 2
  | .busyRejected => 3
  | .illegalCmd => 4

/-- The response word, 13 zero bits, STATUS, FRAME (30_encoding.md R66). -/
def responseWord (st : Status) (f : Frame) : Word := 0#13 ++ st.code ++ f

/-- `respond(STATUS, FRAME)`: the response word is presented on the port and joins the observation (00_scope.md R13). -/
def respond (st : Status) (f : Frame) (s : State) : State :=
  { s with rsp := some (responseWord st f), responses := s.responses ++ [responseWord st f] }

/-- `reject <Status>`: the response, and no write to any state (00_scope.md R13; 60_exceptions.md R161). -/
def reject (st : Status) (s : State) : Host.Outcome State Fault Refusal := .next (respond st 0 s)

/-- `emit(d, v)`: the pair joins the output trace (00_scope.md R13; 10_state.md R30). -/
def emit (d : Dest) (v : Entry) (s : State) : State := { s with out := s.out ++ [(d, v)] }

/-- The response port with nothing presented: `rsp_valid` is 1 only in a step that answers (30_encoding.md R60). -/
def State.quiet (s : State) : State := { s with rsp := none }

end Sys2Proof.Machine
end

