-- ==== Sys2Proof/Machine/Admission.lean ====
section
/-! DEFINITION. The transmission admission controller, SEND, and the output resource's DRAIN step (42_admission.md R130 to
R141). -/

namespace Sys2Proof.Machine

/-- The resource is disabled: OR_EN <- 0 (42_admission.md R131). -/
def disableResource (s : State) : State := { s with orEn := false }

/-- `configure(mode, destination, buffer, length)`: the source table, the destination and the length are bound, and the
count starts at the length (42_admission.md R131, R133). -/
def configureResource (src : BitVec 4) (dst : Dest) (len : Count) (s : State) : State :=
  { s with orSrc := src, orDst := dst, orLen := len, rem := len }

/-- `start()`: OR_EN <- 1 (42_admission.md R133). -/
def startResource (s : State) : State := { s with orEn := true }

/-- `start_transfer(ch)`, six writes inside one step (42_admission.md R131). -/
def startTransfer (ch : Channel) (s : State) : State :=
  startResource
    (configureResource (BitVec.ofNat 4 (tableOf s.par ch)) (s.cfg.dstOf ch) (BitVec.ofNat 16 (tableLen s.par))
      (disableResource s))

/-- SEND ch, one atomic step (42_admission.md R130). -/
def execSend (ch : Channel) (s : State) : Host.Outcome State Fault Refusal :=
  if !s.inited then reject .configRejected s
  else if !enabled s.par s.cfg ch then reject .channelRejected s
  else if s.busy then reject .busyRejected s
  else .next (respond .ok 0 (startTransfer ch s))

/-- An enabled DRAIN: entry OR_LEN − REM of table OR_SRC goes to OR_DST and the count drops by one (42_admission.md R135). -/
def drainEntry (s : State) : State :=
  let v := readEntry s s.orSrc.toNat (s.orLen.toNat - s.rem.toNat)
  { emit s.orDst v s with rem := s.rem - 1 }

/-- The output resource's move: DRAIN where it is enabled; where it is not, no step exists and nothing changes
(42_admission.md R135; notes/assumptions/4.md). -/
def drainStep (s : State) : Host.Outcome State Fault Refusal :=
  if s.drainEnabled then .next (drainEntry s) else .next s

end Sys2Proof.Machine
end

