-- ==== Sys2Proof/Machine/Init.lean ====
section
/-! DEFINITION. Configuration and INIT (43_init.md R150 to R154). -/

namespace Sys2Proof.Machine

/-- A vector with the elements of the channels below `n` taken from `new` and the others kept. -/
def latchBelow {α : Type} (n : Nat) (old new : Vector α 16) : Vector α 16 :=
  Vector.ofFn fun c : Fin 16 => if c.val < n then new[c] else old[c]

/-- The low `n` bits, those of the channels that exist: the port `cfg_en` is NCH bits wide (30_encoding.md R60). -/
def lowBits (n : Nat) : BitVec 16 := BitVec.ofNat 16 (2 ^ n - 1)

/-- `cfg_en`, NCH bits (30_encoding.md R60). -/
def portEn (p : Params) (q : CfgPorts) : BitVec 16 := q.en &&& lowBits p.nch

/-- `cfg_en[c]` (30_encoding.md R73). -/
def CfgPorts.enOf (p : Params) (q : CfgPorts) (c : Channel) : Bool := (portEn p q).getLsbD c.toNat

/-- `cfg_dst[c]` (30_encoding.md R73). -/
def CfgPorts.dstOf (q : CfgPorts) (c : Channel) : Dest := q.dst[c.toNat]'c.isLt

/-- `cfg_mask[c]` (30_encoding.md R73). -/
def CfgPorts.maskOf (q : CfgPorts) (c : Channel) : Half := q.mask[c.toNat]'c.isLt

/-- Conditions (c) and (d) of 43_init.md R151, of the level-multiplex strategy: the masks of the enabled channels are not
zero and pairwise disjoint. -/
def masksValid (p : Params) (q : CfgPorts) : Bool :=
  allChannels.all fun a =>
    !q.enOf p a ||
      (q.maskOf a != 0 &&
        allChannels.all fun b => a == b || !q.enOf p b || (q.maskOf a &&& q.maskOf b) == 0)

/-- `cfg_valid()` (43_init.md R151). -/
def cfgValid (p : Params) (q : CfgPorts) : Bool :=
  q.speed != 3 && portEn p q != 0 &&
    match p.strategy with
    | .duty => true
    | .levelMux => masksValid p q

/-- The configuration record `latch_config()` leaves (43_init.md R152): CFG.MASK is written in the level-multiplex strategy
only. -/
def latchedCfg (p : Params) (q : CfgPorts) (g : CfgRecord) : CfgRecord where
  speed := q.speed
  en := portEn p q ||| (g.en &&& ~~~lowBits p.nch)
  dst := latchBelow p.nch g.dst q.dst
  mask :=
    match p.strategy with
    | .duty => g.mask
    | .levelMux => latchBelow p.nch g.mask q.mask

/-- `latch_config()`: the record is written, every table entry is 0 and so none is listed, INITED is 1 (43_init.md R152). -/
def latchConfig (s : State) : State :=
  { s with cfg := latchedCfg s.par s.ports s.cfg, tbl := [], inited := true }

/-- INIT (43_init.md R150): rejected when already initialised or when the configuration is not valid. -/
def execInit (s : State) : Host.Outcome State Fault Refusal :=
  if s.inited then reject .configRejected s
  else if !cfgValid s.par s.ports then reject .configRejected s
  else .next (respond .ok 0 (latchConfig s))

end Sys2Proof.Machine
end

