-- ==== Sys2Proof/Machine/Encoder.lean ====
section
/-! DEFINITION. The frame encoder and ENCODE (40_frame_encoder.md R80 to R86). -/

namespace Sys2Proof.Machine

/-- `t = thr & 0x7FF`: a mask, not a saturation (40_frame_encoder.md R80). -/
def reduceThrottle (thr : Throttle) : BitVec 11 := (thr &&& 0x7FF#16).setWidth 11

/-- The telemetry bit is always 0 (40_frame_encoder.md R81). -/
def telemetryBit : BitVec 1 := 0#1

/-- `p = (t << 1) | tel` (40_frame_encoder.md R82). -/
def payload (t : BitVec 11) : BitVec 12 := (t.setWidth 12 <<< 1) ||| telemetryBit.setWidth 12

/-- `csum = (p ^ (p >> 4) ^ (p >> 8)) & 0xF` (40_frame_encoder.md R83). -/
def checksum (p : BitVec 12) : BitVec 4 := ((p ^^^ (p >>> 4) ^^^ (p >>> 8)) &&& 0xF#12).setWidth 4

/-- `frame = (p << 4) | csum` (40_frame_encoder.md R84). -/
def packFrame (p : BitVec 12) : Frame := (p.setWidth 16 <<< 4) ||| (checksum p).setWidth 16

/-- `encode(thr)` (40_frame_encoder.md R85). -/
def encodeFrame (thr : Throttle) : Frame := packFrame (payload (reduceThrottle thr))

/-- ENCODE thr: the frame is the response; no state is read or written (40_frame_encoder.md R86). -/
def execEncode (thr : Throttle) (s : State) : Host.Outcome State Fault Refusal :=
  .next (respond .ok (encodeFrame thr) s)

end Sys2Proof.Machine
end

