-- ==== Sys2Proof/Machine/Waveform.lean ====
section
/-! DEFINITION. The waveform table generator and LOAD (41_waveform_table.md R100 to R120): the entry each write leaves, the
sequence of writes, the command's first step and its micro-steps. -/

namespace Sys2Proof.Machine

/-- The duty entry of protocol bit b: LONG for a 1, SHORT for a 0 (41_waveform_table.md R104). -/
def dutyEntry (cal : BitVec 16 × BitVec 16) (f : Frame) (b : Nat) : Entry :=
  (if protocolBit f b then cal.2 else cal.1).setWidth 32

/-- `zext_32(m)`: the SET half of a word for a mask (41_waveform_table.md R110). -/
def setBits (m : Half) : Entry := m.setWidth 32

/-- `zext_32(m) << 16`: the CLR half of a word for a mask (41_waveform_table.md R110). -/
def clrBits (m : Half) : Entry := m.setWidth 32 <<< 16

/-- `M`, the channel's bits in both halves (41_waveform_table.md R110). -/
def channelBits (m : Half) : Entry := setBits m ||| clrBits m

/-- The update of the level-multiplex word at index i: the channel's bits are dropped, its SET bits put in at the rising
sub-slot and its CLR bits at the falling one (41_waveform_table.md R110 to R112). -/
def levelWord (p : Params) (m : Half) (f : Frame) (i : Nat) (old : Entry) : Entry :=
  let v := protocolBit f (i / slotsPerBit)
  let kept := old &&& ~~~channelBits m
  let raised := if i % slotsPerBit = riseSlot p v then kept ||| setBits m else kept
  if i % slotsPerBit = fallSlot p v then raised ||| clrBits m else raised

/-- The entry that the write with index i of a LOAD of channel c with frame f leaves over `old` (41_waveform_table.md R104,
R110). The duty strategy does not read the old value. -/
def loadedEntry (p : Params) (g : CfgRecord) (c : Channel) (f : Frame) (i : Nat) (old : Entry) : Entry :=
  match p.strategy with
  | .duty => dutyEntry (calOf p g.speed) f i
  | .levelMux => levelWord p (g.maskOf c) f i old

/-- The table memory after the write with index i of a LOAD (41_waveform_table.md R104, R110). -/
def loadWrite (p : Params) (g : CfgRecord) (c : Channel) (f : Frame) (m : Memory) (i : Nat) : Memory :=
  m.put ⟨tableOf p c, i⟩ (loadedEntry p g c f i (m.get ⟨tableOf p c, i⟩))

/-- The table memory after the first n writes of a LOAD (41_waveform_table.md R116). -/
def loadPrefix (p : Params) (g : CfgRecord) (c : Channel) (f : Frame) (m : Memory) : Nat → Memory
  | 0 => m
  | n + 1 => loadWrite p g c f (loadPrefix p g c f m n) n

/-- `load_table(T, c, f)`: the table memory after all K writes (41_waveform_table.md R117). -/
def loadTable (p : Params) (g : CfgRecord) (c : Channel) (f : Frame) (m : Memory) : Memory :=
  loadPrefix p g c f m (loadWrites p)

/-- Step 0 of an accepted LOAD (41_waveform_table.md R116): no response yet. -/
def beginLoad (ch : Channel) (f : Frame) (s : State) : State :=
  { s with ldActive := true, ldCh := ch, ldFrame := f, ldIdx := 0 }

/-- LOAD ch, thr (41_waveform_table.md R100, R116): the checks, then step 0. The entry writes and the response are the
micro-steps `loadStep` of the steps that follow. -/
def execLoad (ch : Channel) (thr : Throttle) (s : State) : Host.Outcome State Fault Refusal :=
  if !s.inited then reject .configRejected s
  else if !enabled s.par s.cfg ch then reject .channelRejected s
  else .next (beginLoad ch (encodeFrame thr) s)

/-- One of the steps 1 to K of an accepted LOAD: the entry write with index LD_IDX (41_waveform_table.md R116). -/
def loadWriteStep (s : State) : State :=
  let t := tableOf s.par s.ldCh
  let i := s.ldIdx.toNat
  { writeEntry s t i (loadedEntry s.par s.cfg s.ldCh s.ldFrame i (readEntry s t i)) with ldIdx := s.ldIdx + 1 }

/-- Step K + 1 of an accepted LOAD: it responds OK (41_waveform_table.md R116). -/
def finishLoad (s : State) : State := respond .ok 0 { s with ldActive := false }

/-- The next micro-step of the LOAD in progress; with none in progress there is no such step and nothing changes
(41_waveform_table.md R116; notes/assumptions/4.md). -/
def loadStep (s : State) : Host.Outcome State Fault Refusal :=
  if !s.ldActive then .next s
  else if s.ldIdx.toNat < loadWrites s.par then .next (loadWriteStep s)
  else .next (finishLoad s)

end Sys2Proof.Machine
end

