-- ==== Sys2Proof/Machine/Dispatch.lean ====
section
/-! DEFINITION. The meaning of each command, one arm per constructor of `Instr`. -/

namespace Sys2Proof.Machine

-- The meaning of a command that the command port has accepted (30_encoding.md R63).
def exec (i : Instr) (s : State) : Host.Outcome State Fault Refusal :=
  match i with
  | .init => Sys2Proof.Machine.execInit s
  | .encode thr => Sys2Proof.Machine.execEncode thr s
  | .load ch thr => Sys2Proof.Machine.execLoad ch thr s
  | .send ch => Sys2Proof.Machine.execSend ch s

end Sys2Proof.Machine
end

