-- ==== Sys2Proof/Machine/Environment.lean ====
section
/-! DEFINITION. The command port and the other moves of the two agents (00_scope.md R10, R15, R16; 30_encoding.md R60). -/

namespace Sys2Proof.Machine

/-- A command word is accepted: an illegal word is answered ILLEGAL_CMD and changes nothing, a legal one runs
(30_encoding.md R64, R65; 60_exceptions.md R165). -/
def acceptCommand (w : Word) (s : State) : Host.Outcome State Fault Refusal :=
  match decode w with
  | .ok i => exec i s
  | .error _ => reject .illegalCmd s

/-- Asserting `rst`: every piece of state takes its reset value, a LOAD in progress and a transfer in flight are abandoned
without a response (70_reset_and_hazards.md R180). The parameters, what the host drives, its remaining moves and what it has
observed are not state of the block (notes/assumptions/12.md). -/
def assertReset (s : State) : State :=
  { State.resetOf s.par with
    ports := s.ports, responses := s.responses, samples := s.samples, moves := s.moves }

/-- The host samples the status outputs (00_scope.md R15). -/
def takeSample (s : State) : State := { s with samples := s.samples ++ [s.outputs] }

/-- The host drives the configuration ports (30_encoding.md R73). -/
def driveConfigPorts (q : CfgPorts) (s : State) : State := { s with ports := q }

/-- The next move is taken; `rest` remain. -/
def State.taking (s : State) (rest : List Move) : State := { s with moves := rest }

/-- One move, with the moves `rest` after it. A command presented while `cmd_ready` = 0 is not accepted: it stays presented and
the LOAD in progress makes its next micro-step (30_encoding.md R60; notes/assumptions/5.md). -/
def performMove (m : Move) (rest : List Move) (s : State) : Host.Outcome State Fault Refusal :=
  match m with
  | .command w => if s.cmdReady then acceptCommand w (s.taking rest) else loadStep s
  | .advance => loadStep (s.taking rest)
  | .drain => drainStep (s.taking rest)
  | .drivePorts q => .next (driveConfigPorts q (s.taking rest))
  | .sample => .next (takeSample (s.taking rest))
  | .assertReset => .next (assertReset (s.taking rest))

/-- The step when no move is given: the LOAD in progress goes on, else an enabled DRAIN is taken, else the block holds its
state (00_scope.md R15; 42_admission.md R137; 60_exceptions.md R174; notes/assumptions/3.md). -/
def settle (s : State) : Host.Outcome State Fault Refusal :=
  if s.ldActive then loadStep s else drainStep s

/-- The state with the command word of a table row presented next, on a port that is ready for it
(notes/assumptions/6.md). -/
def presentWord (s : State) (nbits w : Nat) : State :=
  { s with moves := .command (tableWord nbits w) :: s.moves, ldActive := false }

end Sys2Proof.Machine
end

