-- ==== Sys2Proof/Machine/Step.lean ====
section
/-! DEFINITION. One step of the system: the next move of one of the two agents (00_scope.md R10, R15). -/

namespace Sys2Proof.Machine

/-- One step: the response port is quiet unless the step answers a command; the next move is made, and with none given the
run is completed (00_scope.md R15). -/
def step (s : State) : Host.Outcome State Fault Refusal :=
  match s.moves with
  | [] => settle s.quiet
  | m :: rest => performMove m rest s.quiet

/-- `s` with the command of the bits `w` presented on the command port, so that the next step runs it. -/
def State.withFetchWord (s : State) (nbits w : Nat) : State := presentWord s nbits w

end Sys2Proof.Machine
end

