-- ==== Sys2Proof/Machine/Wire.lean ====
section
/-! DEFINITION. What delivered entries mean on the wire (41_waveform_table.md R121, R122): functions of the output trace, since no
state of the block depends on them. The levels before the first word are an argument (notes/assumptions/17.md). -/

namespace Sys2Proof.Machine

/-- SET, bits [15:0] of a level-multiplex word (20_memory.md R42). -/
def setHalf (w : Entry) : Half := w.extractLsb' 0 16

/-- CLR, bits [31:16] of a level-multiplex word (20_memory.md R42). -/
def clrHalf (w : Entry) : Half := w.extractLsb' 16 16

/-- `PINS <- (PINS & ~CLR) | SET`: one delivered word changes the line levels (41_waveform_table.md R122). -/
def applyWord (pins : Half) (w : Entry) : Half := (pins &&& ~~~clrHalf w) ||| setHalf w

/-- The line levels after a sequence of delivered words (41_waveform_table.md R122). -/
def pinsAfter (pins : Half) (ws : List Entry) : Half := ws.foldl applyWord pins

/-- The level of the line at a tick of the carrier period with the compare threshold d: high for the first d ticks
(41_waveform_table.md R121). -/
def dutyLevel (d : Entry) (tick : Nat) : Bool := decide (tick < (d.extractLsb' 0 16).toNat)

/-- The line levels, tick by tick, of a sequence of duty entries with a carrier period of `period` ticks, one period an
entry (41_waveform_table.md R121). -/
def dutyWave (period : Nat) (ds : List Entry) : List Bool :=
  ds.flatMap fun d => (List.range period).map (dutyLevel d)

end Sys2Proof.Machine
end

