-- ==== Sys2Proof/WellFormed.lean ====
section
/-! DEFINITION. The constraints of 00_scope.md R8 on the parameters of an instance. A command needs no check: each of its
operands has exactly the values its field of the command word admits (30_encoding.md R61, R72). -/

namespace Sys2Proof

/-- 0 < SHORT < LONG ≤ 65535 (00_scope.md R8 CAL; the upper bound is the width). -/
abbrev Cal.wf (c : Cal) : Prop := 0 < c.short.toNat ∧ c.short.toNat < c.long.toNat

/-- 1 ≤ NCH ≤ 16 (00_scope.md R8 NCH). -/
abbrev Params.nchWf (p : Params) : Prop := 1 ≤ p.nch ∧ p.nch ≤ 16

/-- GAP is 1 or 2 (00_scope.md R8 GAP). -/
abbrev Params.gapWf (p : Params) : Prop := p.gap = 1 ∨ p.gap = 2

/-- The duration constants of the three speed classes (00_scope.md R8 CAL). -/
abbrev Params.calWf (p : Params) : Prop := p.cal0.wf ∧ p.cal1.wf ∧ p.cal2.wf

/-- 0 ≤ RISE0 < FALL0 ≤ 7 and 0 ≤ RISE1 < FALL1 ≤ 7 (00_scope.md R8). -/
abbrev Params.edgesWf (p : Params) : Prop :=
  p.rise0 < p.fall0 ∧ p.fall0 ≤ 7 ∧ p.rise1 < p.fall1 ∧ p.fall1 ≤ 7

/-- FALL1 − RISE1 > FALL0 − RISE0: a 1 bit has the wider high pulse (00_scope.md R8). -/
abbrev Params.pulseWf (p : Params) : Prop := p.fall0 - p.rise0 < p.fall1 - p.rise1

/-- The parameters an instance may have (00_scope.md R8). -/
abbrev Params.wf (p : Params) : Prop := p.nchWf ∧ p.gapWf ∧ p.calWf ∧ p.edgesWf ∧ p.pulseWf

end Sys2Proof
end

