-- ==== Sys2Proof/Safety.lean ====
section
/-! DEFINITION. What a run of the block is (00_scope.md R15), the invariant of its reachable states (10_state.md R33), and the
conditions under which a LOAD and a transfer do not race (41_waveform_table.md R118; 70_reset_and_hazards.md R184, R189). -/

namespace Sys2Proof.Machine

/-- `n` steps from a state, stopping at the first that gives no next state (00_scope.md R15). It is the host's run of
`Sys2Proof.core` (Laws/Run.lean, `core_run`). -/
def runSteps : Nat → State → Host.Outcome State Fault Refusal
  | 0, s => .next s
  | n + 1, s =>
    match step s with
    | .next t => runSteps n t
    | .fault e => .fault e
    | .refused r => .refused r

/-- `s` with the moves `ms` to be made before the ones it has (00_scope.md R10). -/
def State.withMoves (s : State) (ms : List Move) : State := { s with moves := ms ++ s.moves }

/-- Quiescent: no command in progress and no DRAIN step enabled (00_scope.md R15). -/
abbrev Quiescent (s : State) : Prop := s.ldActive = false ∧ (s.rem = 0 ∨ s.orEn = false)

/-- A move of the output resource or the next micro-step of the LOAD: what may fall between the first and the last step of a
LOAD (41_waveform_table.md R116). -/
def Move.isAdvanceOrDrain : Move → Bool
  | .advance => true
  | .drain => true
  | _ => false

/-- A move that neither loads a table nor resets the block: DRAIN, ports, samples, and every command word that does not decode
to a LOAD (42_admission.md R138). -/
def Move.loadsNothing : Move → Bool
  | .command w => match decode w with
    | .ok (.load _ _) => false
    | _ => true
  | .assertReset => false
  | _ => true

/-- A move that makes no entry write to table `t` and does not reset the block, at the configuration of `s`: a LOAD word may be one
of a channel that is not enabled, which is rejected, or of a channel with another table (42_admission.md R138). -/
def Move.sparesTable (s : State) (t : Nat) : Move → Bool
  | .command w => match decode w with
    | .ok (.load c _) => !(enabled s.par s.cfg c && tableOf s.par c == t)
    | _ => true
  | .assertReset => false
  | _ => true

/-- The frame has the telemetry bit 0 and nibbles that XOR to 0: what `encode` makes (40_frame_encoder.md R89 (a), (b)). -/
abbrev ValidFrame (f : Frame) : Prop :=
  f.getLsbD 4 = false ∧
    f.extractLsb' 12 4 ^^^ f.extractLsb' 8 4 ^^^ f.extractLsb' 4 4 ^^^ f.extractLsb' 0 4 = 0

/-- A LOAD of channel `ch` writes a table that no transfer in flight reads (41_waveform_table.md R118). -/
abbrev LoadIsRaceFree (s : State) (ch : Channel) : Prop :=
  s.rem = 0 ∨ (s.par.strategy = .duty ∧ s.orSrc ≠ ch)

/-- The address (t, i) lies in the table memory (20_memory.md R40). No step checks it: that the indices of the steps lie there is
proved (20_memory.md R44). -/
abbrev EntryExists (p : Params) (t i : Nat) : Prop := t < tableCount p ∧ i < tableLen p

/-- The value in entry i of table t, as a transfer of that table delivers it (42_admission.md R135). -/
def entryAt (m : Memory) (t i : Nat) : Entry := m.get ⟨t, i⟩

/-- What a transfer that nothing races appends to OUT from entry `k` on: `n` pairs in ascending order (42_admission.md
R138). -/
def deliveries (d : Dest) (m : Memory) (t k n : Nat) : List (Dest × Entry) :=
  (List.range n).map fun j => (d, entryAt m t (k + j))

/-- 10_state.md R33 (a). -/
abbrev CountInv (s : State) : Prop :=
  s.rem.toNat ≤ s.orLen.toNat ∧ (s.orLen = 0 ∨ s.orLen.toNat = tableLen s.par)

/-- 10_state.md R33 (b), and what SEND bound: an enabled channel's table and destination (42_admission.md R131). -/
abbrev TransferInv (s : State) : Prop :=
  s.rem ≠ 0 →
    s.orEn = true ∧ s.inited = true ∧ s.orLen.toNat = tableLen s.par ∧
      ∃ c ∈ allChannels, enabled s.par s.cfg c = true ∧ s.orSrc.toNat = tableOf s.par c ∧ s.orDst = s.cfg.dstOf c

/-- 10_state.md R33 (c), and the rest of what only INIT ends. -/
abbrev UninitialisedInv (s : State) : Prop :=
  s.inited = false → s.tbl = [] ∧ s.rem = 0 ∧ s.ldActive = false ∧ s.cfg = CfgRecord.zero

/-- The memory is canonical, and every entry that is not 0 is one a LOAD writes: 10_state.md R33 (d). -/
abbrev TableInv (s : State) : Prop :=
  Memory.wf s.tbl ∧ ∀ c ∈ s.tbl, c.1.table < tableCount s.par ∧ c.1.index < loadWrites s.par

/-- 10_state.md R33 (e). -/
abbrev DutyInv (s : State) : Prop :=
  s.par.strategy = .duty →
    ∀ c ∈ s.tbl, c.2 = (calOf s.par s.cfg.speed).1.setWidth 32 ∨ c.2 = (calOf s.par s.cfg.speed).2.setWidth 32

/-- 10_state.md R33 (f). -/
abbrev LevelInv (s : State) : Prop :=
  s.par.strategy = .levelMux →
    ∀ c ∈ s.tbl, setHalf c.2 &&& clrHalf c.2 = 0 ∧ (setHalf c.2 ||| clrHalf c.2) &&& ~~~enMask s.par s.cfg = 0

/-- 10_state.md R33 (g), and the range of LD_IDX and the frame of R28. -/
abbrev LoadInv (s : State) : Prop :=
  s.ldActive = true →
    s.inited = true ∧ enabled s.par s.cfg s.ldCh = true ∧ s.ldIdx.toNat ≤ loadWrites s.par ∧ ValidFrame s.ldFrame

/-- The legal values of an accepted configuration (10_state.md R23; 43_init.md R151). -/
abbrev ConfigInv (s : State) : Prop :=
  s.inited = true →
    s.cfg.speed ≠ 3 ∧
      (s.par.strategy = .levelMux →
        ∀ a ∈ allChannels, enabled s.par s.cfg a = true →
          s.cfg.maskOf a ≠ 0 ∧
            ∀ b ∈ allChannels, enabled s.par s.cfg b = true → a ≠ b → s.cfg.maskOf a &&& s.cfg.maskOf b = 0)

/-- Channels that the instance does not have hold nothing (notes/assumptions/13.md), and no mask is held in the duty
strategy (10_state.md R23; notes/assumptions/14.md). -/
abbrev UnusedChannelInv (s : State) : Prop :=
  ∀ c ∈ allChannels,
    (s.par.nch ≤ c.toNat → s.cfg.enOf c = false ∧ s.cfg.dstOf c = 0 ∧ s.cfg.maskOf c = 0) ∧
      (s.par.strategy = .duty → s.cfg.maskOf c = 0)

/-- The invariant of the reachable states (10_state.md R33). -/
abbrev BlockInv (s : State) : Prop :=
  s.par.wf ∧ CountInv s ∧ TransferInv s ∧ UninitialisedInv s ∧ TableInv s ∧ DutyInv s ∧ LevelInv s ∧ LoadInv s ∧
    ConfigInv s ∧ UnusedChannelInv s

end Sys2Proof.Machine
end

