-- ==== Sys2Proof/Certificates/Slice0/Obligations.lean ====
section
/-! DEFINITION. The statements for the provers, one `def Obligations.<Name> : Prop` each, file by file of spec/. `s.moves` is
what the two agents do from the state on, so a statement over every state is over every interleaving (00_scope.md R10; the form
of the schedule is the model's choice, notes/assumptions/2.md). R33, R44, R47 (its uses), R51, R88, R89, R106, R115, R117, R118,
R120, R123, R134, R138 and R189 are inferences the spec marks [derived]: the statements of those have the basis `derived`. -/

open Sys2Proof Sys2Proof.Machine

/-! ### The command word (30_encoding.md) -/

/-- Decoding an encoded command gives it back, and encoding a legally decoded word gives the word back. -/
def Obligations.DecodeAndEncodeAgree : Prop :=
  (∀ i : Instr, decode (encode i) = .ok i) ∧ ∀ (w : Word) (i : Instr), decode w = .ok i → encode i = w

/-- R63: a word is the command of a row exactly when `w & mask = match`, with the operands in their fields, and it is illegal
exactly when it matches no row. -/
def Obligations.DecodeFollowsTheCommandMap : Prop :=
  ∀ w : Word,
    (decode w = .ok .init ↔ w &&& 0xFFFFFFFF#32 = 0x10000000#32) ∧
      (∀ thr, decode w = .ok (.encode thr) ↔ w &&& 0xFFFF0000#32 = 0x20000000#32 ∧ thr = w.extractLsb' 0 16) ∧
      (∀ ch thr, decode w = .ok (.load ch thr) ↔
        w &&& 0xF0FF0000#32 = 0x30000000#32 ∧ ch = w.extractLsb' 24 4 ∧ thr = w.extractLsb' 0 16) ∧
      (∀ ch, decode w = .ok (.send ch) ↔ w &&& 0xF0FFFFFF#32 = 0x40000000#32 ∧ ch = w.extractLsb' 24 4) ∧
      ((∃ e, decode w = .error e) ↔
        w &&& 0xFFFFFFFF#32 ≠ 0x10000000#32 ∧ w &&& 0xFFFF0000#32 ≠ 0x20000000#32 ∧
          w &&& 0xF0FF0000#32 ≠ 0x30000000#32 ∧ w &&& 0xF0FFFFFF#32 ≠ 0x40000000#32)

/-- R64: a word that matches no row is answered 0x00040000 (ILLEGAL_CMD) and changes nothing; which fields make it so; the
all-zero word is one. -/
def Obligations.IllegalWordIsAnsweredAndIgnored : Prop :=
  (∀ (s : State) (w : Word) (rest : List Move),
      s.ldActive = false → s.moves = .command w :: rest →
      w &&& 0xFFFFFFFF#32 ≠ 0x10000000#32 → w &&& 0xFFFF0000#32 ≠ 0x20000000#32 →
      w &&& 0xF0FF0000#32 ≠ 0x30000000#32 → w &&& 0xF0FFFFFF#32 ≠ 0x40000000#32 →
      step s = .next { s with
        moves := rest, rsp := some 0x00040000#32, responses := s.responses ++ [0x00040000#32] }) ∧
    (∀ w : Word,
      (w &&& 0xFFFFFFFF#32 ≠ 0x10000000#32 ∧ w &&& 0xFFFF0000#32 ≠ 0x20000000#32 ∧
          w &&& 0xF0FF0000#32 ≠ 0x30000000#32 ∧ w &&& 0xF0FFFFFF#32 ≠ 0x40000000#32) ↔
        (w.extractLsb' 28 4 = 0 ∨ 5 ≤ (w.extractLsb' 28 4).toNat ∨ w.extractLsb' 16 8 ≠ 0 ∨
          (w.extractLsb' 28 4 = 1 ∧ (w.extractLsb' 24 4 ≠ 0 ∨ w.extractLsb' 0 16 ≠ 0)) ∨
          (w.extractLsb' 28 4 = 2 ∧ w.extractLsb' 24 4 ≠ 0) ∨
          (w.extractLsb' 28 4 = 4 ∧ w.extractLsb' 0 16 ≠ 0))) ∧
    ∃ e, decode 0#32 = .error e

/-- A few words written out from the encodings of 30_encoding.md R63 decode to their commands. -/
def Obligations.WrittenOutWordsDecode : Prop :=
  decode 0b00010000000000000000000000000000#32 = .ok .init ∧
    decode 0b00100000000000000000010000010110#32 = .ok (.encode 1046) ∧
    decode 0b00111111000000000000011111111111#32 = .ok (.load 15 2047) ∧
    decode 0b01000011000000000000000000000000#32 = .ok (.send 3) ∧
    decode 0b01000011000000000000000000000001#32 = .error .throttleNotZero

/-- R66: a step presents at most one response word, and every word it presents has zeros in [31:19], a STATUS of at most 4,
and a FRAME of 0 unless it answers an ENCODE with status OK. -/
def Obligations.ResponseWordsHaveTheirFormat : Prop :=
  ∀ s t : State, step s = .next t →
    (t.rsp = none ∧ t.responses = s.responses) ∨
      ∃ w, t.rsp = some w ∧ t.responses = s.responses ++ [w] ∧
        w.extractLsb' 19 13 = 0 ∧ (w.extractLsb' 16 3).toNat ≤ 4 ∧
        (w.extractLsb' 0 16 ≠ 0 →
          w.extractLsb' 16 3 = 0 ∧ ∃ c rest thr, s.moves = .command c :: rest ∧ decode c = .ok (.encode thr))

/-- When the word presented decodes to a command and the port is ready, the step is `exec` of that command on the state with
that move taken and the response port quiet (moves: the model's choice, notes/assumptions/2.md). -/
def Obligations.StepRunsTheDecodedCommand : Prop :=
  ∀ (s : State) (w : Word) (rest : List Move) (i : Instr),
    s.moves = .command w :: rest → s.ldActive = false → decode w = .ok i →
    step s = exec i { s with moves := rest, rsp := none }

/-- While LD_ACTIVE = 1 the command port accepts no command: the word stays presented and the step is the next micro-step of
the LOAD (what the step does instead is the model's choice, notes/assumptions/5.md). -/
def Obligations.CommandWaitsForTheLoad : Prop :=
  ∀ (s : State) (w : Word) (rest : List Move),
    s.ldActive = true → s.moves = .command w :: rest →
    step s = step { s with moves := .advance :: .command w :: rest }

/-- Every command is answered in every state: no command stops the machine. -/
def Obligations.EveryCommandIsAnswered : Prop :=
  ∀ (i : Instr) (s : State), ∃ t, exec i s = .next t ∧
    (i = .init ∨ t.cfg = s.cfg) ∧ t.par = s.par ∧ t.out = s.out ∧ t.samples = s.samples ∧ t.moves = s.moves ∧
      t.ports = s.ports

/-! ### The frame encoder (40_frame_encoder.md) -/

/-- R86: ENCODE answers status OK and the frame in every state and changes nothing; its word, its illegal words and its
corner cases. -/
def Obligations.EncodeAnswersTheFrame : Prop :=
  (∀ (thr : Throttle) (s : State),
      exec (.encode thr) s = .next { s with
        rsp := some ((encodeFrame thr).setWidth 32),
        responses := s.responses ++ [(encodeFrame thr).setWidth 32] }) ∧
    (∀ thr : Throttle, decode (0x20000000#32 ||| thr.setWidth 32) = .ok (.encode thr)) ∧
    (∀ w : Word, w.extractLsb' 28 4 = 2 → (w.extractLsb' 24 4 ≠ 0 ∨ w.extractLsb' 16 8 ≠ 0) →
      ∃ e, decode w = .error e) ∧
    encodeFrame 0 = 0x0000 ∧ encodeFrame 2047 = 0xFFEE ∧ encodeFrame 2048 = 0x0000 ∧ encodeFrame 4095 = 0xFFEE ∧
      encodeFrame 65535 = 0xFFEE ∧ encodeFrame 1046 = 0x82C6 ∧ encode (.encode 1046) = 0x20000416#32 ∧
      reduceThrottle 1046 = 0x416#11 ∧ payload 0x416#11 = 0x82C#12 ∧ checksum 0x82C#12 = 0x6#4

/-- R80, R82 to R84: with t the throttle modulo 2048, the payload is 2t, the checksum the fold of its nibbles, and the frame
16 × payload + checksum with each field in its place. -/
def Obligations.FrameHoldsPayloadAndChecksum : Prop :=
  ∀ thr : Throttle,
    let t := thr.toNat % 2048
    let p := 2 * t
    let c := (p ^^^ p / 16 ^^^ p / 256) % 16
    (thr &&& 0x7FF#16).toNat = t ∧
      (encodeFrame thr).toNat = 16 * p + c ∧
      (encodeFrame thr).extractLsb' 4 12 = BitVec.ofNat 12 p ∧
      (encodeFrame thr).extractLsb' 0 4 = BitVec.ofNat 4 c ∧
      (encodeFrame thr).extractLsb' 5 11 = BitVec.ofNat 11 t ∧
      (encodeFrame thr).getLsbD 4 = false

/-- R88: the checksum bit by bit, in bits of the payload, of the frame and of the throttle. -/
def Obligations.ChecksumBitByBit : Prop :=
  (∀ p : BitVec 12,
      checksum p = p.extractLsb' 8 4 ^^^ p.extractLsb' 4 4 ^^^ p.extractLsb' 0 4 ∧
        ∀ k < 4, (checksum p).getLsbD k = (p.getLsbD k ^^ p.getLsbD (k + 4) ^^ p.getLsbD (k + 8))) ∧
    ∀ thr : Throttle,
      let f := encodeFrame thr
      (∀ k < 4, f.getLsbD k = (f.getLsbD (k + 4) ^^ f.getLsbD (k + 8) ^^ f.getLsbD (k + 12))) ∧
        f.getLsbD 0 = (thr.getLsbD 3 ^^ thr.getLsbD 7) ∧
        f.getLsbD 1 = (thr.getLsbD 0 ^^ thr.getLsbD 4 ^^ thr.getLsbD 8) ∧
        f.getLsbD 2 = (thr.getLsbD 1 ^^ thr.getLsbD 5 ^^ thr.getLsbD 9) ∧
        f.getLsbD 3 = (thr.getLsbD 2 ^^ thr.getLsbD 6 ^^ thr.getLsbD 10)

/-- R89: (a) the nibbles XOR to 0; (b) bit 4 is 0; (c) clamping idempotence; (d) injective on 0..2047, with the throttle in
[15:5], and 2048 frames in all; (e) the answer depends on no state; (f) the source's property of the checksum nibble. -/
def Obligations.FrameConsequences : Prop :=
  (∀ thr : Throttle, let f := encodeFrame thr
      f.extractLsb' 12 4 ^^^ f.extractLsb' 8 4 ^^^ f.extractLsb' 4 4 ^^^ f.extractLsb' 0 4 = 0 ∧
        f.getLsbD 4 = false ∧ f = encodeFrame (thr &&& 0x7FF#16) ∧
        f.extractLsb' 5 11 = (thr &&& 0x7FF#16).setWidth 11) ∧
    (∀ a b : Throttle, a.toNat ≤ 2047 → b.toNat ≤ 2047 → encodeFrame a = encodeFrame b → a = b) ∧
    (Set.range encodeFrame).ncard = 2048 ∧
    (∀ (thr : Throttle) (s s' : State), ∃ w t t', exec (.encode thr) s = .next t ∧ exec (.encode thr) s' = .next t' ∧
      t.rsp = some w ∧ t'.rsp = some w) ∧
    ∀ thr : Throttle, thr.toNat ≤ 2047 →
      ((encodeFrame thr).extractLsb' 0 4).toNat =
        (2 * thr.toNat ^^^ 2 * thr.toNat / 16 ^^^ 2 * thr.toNat / 256) % 16

/-! ### Configuration and INIT (43_init.md) -/

/-- R151: `cfg_valid()` is the conjunction of its four conditions, over the channels of the instance. -/
def Obligations.ConfigurationValidity : Prop :=
  ∀ (p : Params) (q : CfgPorts), p.nchWf →
    (cfgValid p q = true ↔
      q.speed ≠ 3 ∧
        (∃ c : Channel, c.toNat < p.nch ∧ q.en.getLsbD c.toNat = true) ∧
        (p.strategy = .levelMux →
          ∀ c : Channel, c.toNat < p.nch → q.en.getLsbD c.toNat = true → q.maskOf c ≠ 0) ∧
        (p.strategy = .levelMux →
          ∀ a b : Channel, a ≠ b → a.toNat < p.nch → b.toNat < p.nch → q.en.getLsbD a.toNat = true →
            q.en.getLsbD b.toNat = true → q.maskOf a &&& q.maskOf b = 0))

/-- R152: an accepted INIT latches the ports for every channel of the instance, zeroes every entry and sets INITED; the output
resource and everything else stay. -/
def Obligations.InitLatchesTheConfiguration : Prop :=
  ∀ s : State, s.par.nchWf → s.inited = false → cfgValid s.par s.ports = true →
    ∃ t, exec .init s = .next t ∧
      t.inited = true ∧ t.cfg.speed = s.ports.speed ∧
      (∀ c : Channel, c.toNat < s.par.nch →
        t.cfg.enOf c = s.ports.en.getLsbD c.toNat ∧ t.cfg.dstOf c = s.ports.dstOf c ∧
          (s.par.strategy = .levelMux → t.cfg.maskOf c = s.ports.maskOf c)) ∧
      (∀ a, t.tbl.get a = 0) ∧
      t.rsp = some 0#32 ∧ t.responses = s.responses ++ [0#32] ∧
      t.par = s.par ∧ t.orEn = s.orEn ∧ t.orSrc = s.orSrc ∧ t.orDst = s.orDst ∧ t.orLen = s.orLen ∧ t.rem = s.rem ∧
      t.ldActive = s.ldActive ∧ t.ldCh = s.ldCh ∧ t.ldFrame = s.ldFrame ∧ t.ldIdx = s.ldIdx ∧ t.out = s.out ∧
      t.ports = s.ports ∧ t.samples = s.samples ∧ t.moves = s.moves

/-- An accepted INIT leaves what the model holds for channels the instance does not have as it was (the model's choice,
notes/assumptions/13.md). -/
def Obligations.InitLeavesAbsentChannelsAlone : Prop :=
  ∀ s : State, s.par.nchWf → s.inited = false → cfgValid s.par s.ports = true →
    ∃ t, exec .init s = .next t ∧
      ∀ c : Channel, s.par.nch ≤ c.toNat →
        t.cfg.enOf c = s.cfg.enOf c ∧ t.cfg.dstOf c = s.cfg.dstOf c ∧ t.cfg.maskOf c = s.cfg.maskOf c

/-- In the duty strategy an accepted INIT writes no mask: the model holds the field, which the spec has in the level-multiplex
strategy only (the model's reading, notes/assumptions/14.md). -/
def Obligations.InitWritesNoMaskInDuty : Prop :=
  ∀ s : State, s.par.strategy = .duty → s.inited = false → cfgValid s.par s.ports = true →
    ∃ t, exec .init s = .next t ∧ t.cfg.mask = s.cfg.mask

/-- R154: after an accepted INIT no step but `rst` changes CFG, and INITED stays 1. -/
def Obligations.ConfigurationIsConstant : Prop :=
  ∀ s t : State, step s = .next t → s.inited = true → (∀ rest, s.moves ≠ .assertReset :: rest) →
    t.cfg = s.cfg ∧ t.inited = true

/-- R8: the parameters are fixed for the life of an instance; no step changes them (that State holds them is the model's choice,
notes/assumptions/1.md). -/
def Obligations.ParametersAreFixed : Prop :=
  ∀ s t : State, step s = .next t → t.par = s.par

/-- R22: INITED is 0 after `rst`; it goes from 0 to 1 by an accepted INIT and by nothing else, and from 1 to 0 by `rst` only;
while it is 0 every LOAD and SEND is rejected. -/
def Obligations.OnlyInitSetsInited : Prop :=
  (∀ s t : State, step s = .next t → s.inited = false → t.inited = true →
      s.ldActive = false ∧ cfgValid s.par s.ports = true ∧ ∃ rest, s.moves = .command 0x10000000#32 :: rest) ∧
    (∀ s t : State, step s = .next t → s.inited = true → t.inited = false →
      ∃ rest, s.moves = .assertReset :: rest) ∧
    (∀ (s : State) (rest : List Move), s.moves = .assertReset :: rest → ∃ t, step s = .next t ∧ t.inited = false) ∧
    (∀ s : State, s.inited = false → s.ldActive = false → cfgValid s.par s.ports = true →
      ∀ rest, s.moves = .command 0x10000000#32 :: rest → ∃ t, step s = .next t ∧ t.inited = true) ∧
    (∀ s : State, s.inited = false → ∀ (ch : Channel) (thr : Throttle),
      exec (.load ch thr) s = .next { s with
          rsp := some 0x00010000#32, responses := s.responses ++ [0x00010000#32] } ∧
        exec (.send ch) s = .next { s with
          rsp := some 0x00010000#32, responses := s.responses ++ [0x00010000#32] })

/-- R73: the configuration ports have an effect on an accepted INIT only. -/
def Obligations.PortsMatterOnlyAtInit : Prop :=
  ∀ (s : State) (q : CfgPorts),
    (∀ q' rest, s.moves ≠ .drivePorts q' :: rest) →
    (∀ rest, s.moves = .command 0x10000000#32 :: rest → s.ldActive = true ∨ s.inited = true) →
    step { s with ports := q } =
      match step s with
      | .next t => .next { t with ports := q }
      | .fault e => .fault e
      | .refused r => .refused r

/-! ### The waveform table generator and LOAD (41_waveform_table.md) -/

/-- Step 0 of an accepted LOAD (R100, R116): the load is in progress with the encoded frame, and nothing else changes. -/
def Obligations.LoadIsAccepted : Prop :=
  ∀ (ch : Channel) (thr : Throttle) (s : State),
    s.inited = true → ch.toNat < s.par.nch → s.cfg.en.getLsbD ch.toNat = true →
    exec (.load ch thr) s = .next { s with
      ldActive := true, ldCh := ch, ldFrame := encodeFrame thr, ldIdx := 0 }

/-- R110 to R112, half by half: in the word of sub-slot i mod 8 of protocol bit i div 8, the channel's bits are in SET at the
rising sub-slot, in CLR at the falling one and in neither elsewhere, and every other bit keeps its value. -/
def Obligations.LevelWordWriteRule : Prop :=
  ∀ (p : Params) (g : CfgRecord) (c : Channel) (f : Frame) (i : Nat) (old : Entry),
    p.strategy = .levelMux → i < 128 →
    let m := g.maskOf c
    let v := f.getLsbD (15 - i / 8)
    let new := loadedEntry p g c f i old
    setHalf new = (setHalf old &&& ~~~m) ||| (if i % 8 = (if v then p.rise1 else p.rise0) then m else 0) ∧
      clrHalf new = (clrHalf old &&& ~~~m) ||| (if i % 8 = (if v then p.fall1 else p.fall0) then m else 0)

/-- R116: the micro-steps of a LOAD in progress. An entry write changes the one entry with index LD_IDX of the channel's table
to what R104 or R110 give and moves on; after K writes the LOAD ends with status OK. -/
def Obligations.LoadMicroSteps : Prop :=
  ∀ (s : State) (rest : List Move), BlockInv s → s.ldActive = true →
    (s.ldIdx.toNat < loadWrites s.par →
      ∃ t, step { s with moves := .advance :: rest } = .next t ∧
        t = { s with tbl := t.tbl, ldIdx := t.ldIdx, moves := rest, rsp := none } ∧
        t.ldIdx.toNat = s.ldIdx.toNat + 1 ∧
        (∀ a : Addr, a ≠ ⟨tableOf s.par s.ldCh, s.ldIdx.toNat⟩ → t.tbl.get a = s.tbl.get a) ∧
        (s.par.strategy = .duty →
          t.tbl.get ⟨s.ldCh.toNat, s.ldIdx.toNat⟩ =
            if s.ldFrame.getLsbD (15 - s.ldIdx.toNat) then (calOf s.par s.cfg.speed).2.setWidth 32
            else (calOf s.par s.cfg.speed).1.setWidth 32) ∧
        (s.par.strategy = .levelMux →
          t.tbl.get ⟨0, s.ldIdx.toNat⟩ =
            levelWord s.par (s.cfg.maskOf s.ldCh) s.ldFrame s.ldIdx.toNat (s.tbl.get ⟨0, s.ldIdx.toNat⟩))) ∧
      (s.ldIdx.toNat = loadWrites s.par →
        step { s with moves := .advance :: rest } = .next { s with
          ldActive := false, moves := rest, rsp := some 0#32, responses := s.responses ++ [0#32] })

/-- R106: what a duty LOAD leaves: sixteen entries in the order of the frame's bits, the rest of the memory as it was, the same
after a repeated LOAD, and the frame can be read back. -/
def Obligations.DutyTableAfterLoad : Prop :=
  ∀ (p : Params) (g : CfgRecord) (c : Channel) (thr : Throttle) (m : Memory),
    p.wf → p.strategy = .duty → g.speed ≠ 3 → m.wf →
    let f := encodeFrame thr
    let m' := loadTable p g c f m
    (∀ b < 16, m'.get ⟨c.toNat, b⟩ =
        if f.getLsbD (15 - b) then (calOf p g.speed).2.setWidth 32 else (calOf p g.speed).1.setWidth 32) ∧
      (∀ i, 16 ≤ i → m'.get ⟨c.toNat, i⟩ = m.get ⟨c.toNat, i⟩) ∧
      (∀ t i, t ≠ c.toNat → m'.get ⟨t, i⟩ = m.get ⟨t, i⟩) ∧
      m' = loadTable p g c (encodeFrame (thr &&& 0x7FF#16)) m ∧
      loadTable p g c f m' = m' ∧
      ∀ b < 16, f.getLsbD (15 - b) = true ↔ m'.get ⟨c.toNat, b⟩ = (calOf p g.speed).2.setWidth 32

/-- R115: what a level-multiplex LOAD leaves: in every protocol bit one word that sets all of the mask, one later word that
clears all of it, and no bit of it elsewhere; the rest as it was; the same after a repeated LOAD; and the frame can be read
back. -/
def Obligations.LevelTableAfterLoad : Prop :=
  ∀ (p : Params) (g : CfgRecord) (c : Channel) (thr : Throttle) (m : Memory),
    p.wf → p.strategy = .levelMux → g.maskOf c ≠ 0 → m.wf →
    let f := encodeFrame thr
    let k := g.maskOf c
    let m' := loadTable p g c f m
    (∀ b < 16, ∃ r q, r < q ∧ q < 8 ∧ r = riseSlot p (f.getLsbD (15 - b)) ∧ q = fallSlot p (f.getLsbD (15 - b)) ∧
        ∀ j < 8,
          setHalf (m'.get ⟨0, 8 * b + j⟩) &&& k = (if j = r then k else 0) ∧
            clrHalf (m'.get ⟨0, 8 * b + j⟩) &&& k = (if j = q then k else 0)) ∧
      (∀ a, m'.get a &&& ~~~channelBits k = m.get a &&& ~~~channelBits k) ∧
      (∀ t i, t ≠ 0 ∨ 128 ≤ i → m'.get ⟨t, i⟩ = m.get ⟨t, i⟩) ∧
      loadTable p g c f m' = m' ∧
      (∀ b < 16, p.rise1 ≠ p.rise0 →
        (f.getLsbD (15 - b) = true ↔ setHalf (m'.get ⟨0, 8 * b + p.rise1⟩) &&& k = k)) ∧
      (∀ b < 16, p.fall1 ≠ p.fall0 →
        (f.getLsbD (15 - b) = true ↔ clrHalf (m'.get ⟨0, 8 * b + p.fall1⟩) &&& k = k)) ∧
      (p.rise1 ≠ p.rise0 ∨ p.fall1 ≠ p.fall0)

/-- R51: a LOAD for one channel leaves every bit of every other enabled channel's mask, in both halves of every word, as it
was. -/
def Obligations.OtherChannelsKeepTheirBits : Prop :=
  ∀ (s : State) (a b : Channel) (thr : Throttle),
    BlockInv s → s.par.strategy = .levelMux → s.inited = true →
    enabled s.par s.cfg a = true → enabled s.par s.cfg b = true → a ≠ b →
    ∀ x : Addr,
      (loadTable s.par s.cfg a (encodeFrame thr) s.tbl).get x &&& channelBits (s.cfg.maskOf b) =
          s.tbl.get x &&& channelBits (s.cfg.maskOf b) ∧
        (loadTable s.par s.cfg a (encodeFrame thr) s.tbl).get x &&& ~~~channelBits (s.cfg.maskOf a) =
          s.tbl.get x &&& ~~~channelBits (s.cfg.maskOf a)

/-- R117: after step K + 1 the table memory is `load_table(T0, ch, encode(thr))` whatever DRAIN steps fell between, and the LOAD
has answered once, with OK; `load_table` does not depend on what the channel itself had in the table. -/
def Obligations.LoadEndsAsLoadTable : Prop :=
  (∀ (s : State) (ch : Channel) (thr : Throttle) (ms rest : List Move),
      BlockInv s → s.ldActive = false → s.inited = true → enabled s.par s.cfg ch = true →
      (∀ m ∈ ms, m.isAdvanceOrDrain = true) → loadWrites s.par + 1 ≤ ms.count .advance →
      s.moves = .command (encode (.load ch thr)) :: (ms ++ rest) →
      ∃ t, runSteps (ms.length + 1) s = .next t ∧ t.moves = rest ∧ t.ldActive = false ∧
        t.tbl = loadTable s.par s.cfg ch (encodeFrame thr) s.tbl ∧
        t.responses = s.responses ++ [0#32] ∧
        t.cfg = s.cfg ∧ t.inited = true ∧ t.orSrc = s.orSrc ∧ t.orDst = s.orDst ∧ t.orLen = s.orLen) ∧
    (∀ (p : Params) (g : CfgRecord) (c : Channel) (f : Frame) (m m' : Memory),
      p.strategy = .duty → m.wf → m'.wf →
      (∀ a : Addr, a.table ≠ c.toNat ∨ 16 ≤ a.index → m.get a = m'.get a) →
      loadTable p g c f m = loadTable p g c f m') ∧
    ∀ (p : Params) (g : CfgRecord) (c : Channel) (f : Frame) (m m' : Memory),
      p.strategy = .levelMux → m.wf → m'.wf →
      (∀ a : Addr, a.table ≠ 0 ∨ 128 ≤ a.index → m.get a = m'.get a) →
      (∀ i < 128, m.get ⟨0, i⟩ &&& ~~~channelBits (g.maskOf c) = m'.get ⟨0, i⟩ &&& ~~~channelBits (g.maskOf c)) →
      loadTable p g c f m = loadTable p g c f m'

/-- R118, what the transfer sees: the DRAIN steps between the steps of a LOAD that writes no table a transfer in flight reads deliver
what they would have delivered without it. What the LOAD itself leaves and answers is LoadEndsAsLoadTable. -/
def Obligations.RaceFreeLoadLeavesTheTransfer : Prop :=
  ∀ (s : State) (ch : Channel) (thr : Throttle) (ms rest : List Move),
    BlockInv s → s.ldActive = false → s.inited = true → enabled s.par s.cfg ch = true → LoadIsRaceFree s ch →
    (∀ m ∈ ms, m.isAdvanceOrDrain = true) →
    s.moves = .command (encode (.load ch thr)) :: (ms ++ rest) →
    ∃ t n, runSteps (ms.length + 1) s = .next t ∧ n = min (ms.count .drain) s.rem.toNat ∧
      t.rem.toNat = s.rem.toNat - n ∧
      t.out = s.out ++ deliveries s.orDst s.tbl s.orSrc.toNat (s.orLen.toNat - s.rem.toNat) n

/-- R120, nothing but old or new: every entry a racing transfer delivers is the whole old entry or the whole new one, and in the
level-multiplex strategy every other enabled channel's bits of it are what they were. -/
def Obligations.RacingTransferDeliversOldOrNew : Prop :=
  ∀ (s : State) (ch : Channel) (thr : Throttle) (ms rest : List Move),
    BlockInv s → s.ldActive = false → s.inited = true → enabled s.par s.cfg ch = true →
    (∀ m ∈ ms, m.isAdvanceOrDrain = true) →
    s.moves = .command (encode (.load ch thr)) :: (ms ++ rest) →
    ∃ (t : State) (vs : List Entry), runSteps (ms.length + 1) s = .next t ∧
      vs.length = min (ms.count .drain) s.rem.toNat ∧
      t.out = s.out ++ vs.map (fun v => (s.orDst, v)) ∧
      ∀ j, ∀ h : j < vs.length,
        let i := s.orLen.toNat - s.rem.toNat + j
        (vs[j] = entryAt s.tbl s.orSrc.toNat i ∨
            vs[j] = entryAt (loadTable s.par s.cfg ch (encodeFrame thr) s.tbl) s.orSrc.toNat i) ∧
          (s.par.strategy = .levelMux → ∀ b, enabled s.par s.cfg b = true → b ≠ ch →
            vs[j] &&& channelBits (s.cfg.maskOf b) =
              entryAt s.tbl s.orSrc.toNat i &&& channelBits (s.cfg.maskOf b))

/-- R120, every pattern: for each choice of old and new over the entries still to be delivered, some interleaving of the LOAD
with the transfer delivers exactly that choice, and the table ends as `load_table` says. -/
def Obligations.EveryRacePatternHappens : Prop :=
  ∀ (s : State) (ch : Channel) (thr : Throttle) (pattern : Nat → Bool),
    BlockInv s → s.ldActive = false → s.inited = true → enabled s.par s.cfg ch = true →
    s.rem ≠ 0 → s.orSrc.toNat = tableOf s.par ch →
    ∃ ms : List Move, (∀ m ∈ ms, m.isAdvanceOrDrain = true) ∧
      ∃ t, runSteps (ms.length + 1) { s with moves := .command (encode (.load ch thr)) :: ms } = .next t ∧
        t.ldActive = false ∧ t.rem = 0 ∧
        t.tbl = loadTable s.par s.cfg ch (encodeFrame thr) s.tbl ∧
        t.out = s.out ++ (List.range s.rem.toNat).map (fun j =>
          let i := s.orLen.toNat - s.rem.toNat + j
          (s.orDst,
            if pattern i then entryAt (loadTable s.par s.cfg ch (encodeFrame thr) s.tbl) s.orSrc.toNat i
            else entryAt s.tbl s.orSrc.toNat i))

/-! ### The admission controller, SEND and DRAIN (42_admission.md) -/

/-- R131: an accepted SEND binds the channel's table, destination and the full length and starts the resource, in one step that
changes nothing else. -/
def Obligations.SendStartsTheTransfer : Prop :=
  ∀ (ch : Channel) (s : State),
    s.par.wf → s.inited = true → ch.toNat < s.par.nch → s.cfg.en.getLsbD ch.toNat = true → s.rem = 0 →
    ∃ t, exec (.send ch) s = .next t ∧
      t = { s with
        orEn := true, orSrc := t.orSrc, orDst := s.cfg.dstOf ch, orLen := t.orLen, rem := t.rem,
        rsp := some 0#32, responses := s.responses ++ [0#32] } ∧
      (s.par.strategy = .duty → t.orSrc = ch ∧ t.orLen.toNat = 16 + s.par.gap) ∧
      (s.par.strategy = .levelMux → t.orSrc = 0 ∧ t.orLen.toNat = (16 + s.par.gap) * 8) ∧
      t.rem = t.orLen

/-- R132: a SEND of an enabled channel while REM ≠ 0 is rejected and leaves everything as it was, whichever channel it names; with
REM = 0 it is accepted and the block goes from Idle to Transmitting. -/
def Obligations.BusySendIsRejected : Prop :=
  ∀ (ch : Channel) (s : State), s.inited = true → enabled s.par s.cfg ch = true →
    (s.rem ≠ 0 →
      exec (.send ch) s = .next { s with
        rsp := some 0x00030000#32, responses := s.responses ++ [0x00030000#32] }) ∧
      (s.rem = 0 → s.par.wf → ∃ t, exec (.send ch) s = .next t ∧ t.rsp = some 0#32 ∧ t.rem ≠ 0)

/-- R167 and R161: which one status is reported when a command is turned away, in the order ILLEGAL_CMD, CONFIG_REJECTED,
CHANNEL_REJECTED, BUSY_REJECTED, and that a rejection writes no state. -/
def Obligations.RejectionPriority : Prop :=
  ∀ (s : State) (w : Word) (rest : List Move),
    s.ldActive = false → s.moves = .command w :: rest →
    let rejectedWith (code : Word) : Prop :=
      step s = .next { s with moves := rest, rsp := some code, responses := s.responses ++ [code] }
    ((∃ e, decode w = .error e) → rejectedWith 0x00040000#32) ∧
      (decode w = .ok .init → (s.inited = true ∨ cfgValid s.par s.ports = false) → rejectedWith 0x00010000#32) ∧
      (∀ ch thr, decode w = .ok (.load ch thr) →
        (s.inited = false → rejectedWith 0x00010000#32) ∧
          (s.inited = true → (s.par.nch ≤ ch.toNat ∨ s.cfg.en.getLsbD ch.toNat = false) →
            rejectedWith 0x00020000#32)) ∧
      (∀ ch, decode w = .ok (.send ch) →
        (s.inited = false → rejectedWith 0x00010000#32) ∧
          (s.inited = true → (s.par.nch ≤ ch.toNat ∨ s.cfg.en.getLsbD ch.toNat = false) →
            rejectedWith 0x00020000#32) ∧
          (s.inited = true → ch.toNat < s.par.nch → s.cfg.en.getLsbD ch.toNat = true → s.rem ≠ 0 →
            rejectedWith 0x00030000#32))

/-- R135: DRAIN is enabled exactly when OR_EN = 1 and REM ≠ 0; it delivers entry OR_LEN − REM of table OR_SRC to OR_DST and
decrements REM, and writes nothing else. -/
def Obligations.DrainDeliversOneEntry : Prop :=
  (∀ s : State, s.drainEnabled = true ↔ s.orEn = true ∧ s.rem ≠ 0) ∧
    ∀ (s : State) (rest : List Move), BlockInv s → s.moves = .drain :: rest → s.orEn = true → s.rem ≠ 0 →
      (s.rem - 1).toNat + 1 = s.rem.toNat ∧
        s.orSrc.toNat < tableCount s.par ∧ s.orLen.toNat - s.rem.toNat < tableLen s.par ∧
        step s = .next { s with
          moves := rest, rsp := none, rem := s.rem - 1,
          out := s.out ++ [(s.orDst, s.tbl.get ⟨s.orSrc.toNat, s.orLen.toNat - s.rem.toNat⟩)] }

/-- R136: the DRAIN that leaves REM = 0 completes the transfer: the block is Idle, the resource stays enabled and bound, no DRAIN
is enabled and nothing is answered. -/
def Obligations.CompletionKeepsTheBinding : Prop :=
  ∀ (s : State) (rest : List Move), BlockInv s → s.moves = .drain :: rest → s.rem = 1 →
    ∃ t, step s = .next t ∧ t.rem = 0 ∧ t.busy = false ∧ t.idle = true ∧ t.orEn = true ∧ t.orSrc = s.orSrc ∧
      t.orDst = s.orDst ∧ t.orLen = s.orLen ∧ t.drainEnabled = false ∧ t.rsp = none ∧ t.responses = s.responses

/-- A move of an agent that has no enabled step (a DRAIN with OR_EN = 0 or REM = 0, a micro-step with no LOAD in progress) changes
nothing but the moves and the response port: the model's choice, notes/assumptions/4.md. -/
def Obligations.MovesWithNoStepChangeNothing : Prop :=
  ∀ (s : State) (rest : List Move),
    (s.moves = .drain :: rest → (s.orEn = false ∨ s.rem = 0) → step s = .next { s with moves := rest, rsp := none }) ∧
      (s.moves = .advance :: rest → s.ldActive = false → step s = .next { s with moves := rest, rsp := none })

/-- R134: the transitions of Idle and Transmitting. From Idle only an accepted SEND leaves, with REM = LEN; in Transmitting REM
stays or drops by one with one delivery; no step makes a non-zero REM larger; `rst` makes it 0. -/
def Obligations.RemainingCountTransitions : Prop :=
  ∀ s t : State, BlockInv s → step s = .next t →
    (s.rem = 0 → t.rem ≠ 0 →
      s.ldActive = false ∧ t.rem.toNat = tableLen s.par ∧ t.out = s.out ∧
        ∃ w ch rest, s.moves = .command w :: rest ∧ decode w = .ok (.send ch) ∧ enabled s.par s.cfg ch = true) ∧
      (s.rem ≠ 0 →
        (t.rem = s.rem ∧ t.out = s.out) ∨
          (t.rem.toNat + 1 = s.rem.toNat ∧ t.out.length = s.out.length + 1) ∨
          (t.rem = 0 ∧ ∃ rest, s.moves = .assertReset :: rest)) ∧
      (s.rem = 0 → t.rem = 0 → t.out = s.out ∨ ∃ rest, s.moves = .assertReset :: rest)

/-- R30: OUT is appended to by DRAIN only; and what is appended goes to the destination of an enabled channel, from that
channel's table. -/
def Obligations.OutputGoesToAnEnabledDestination : Prop :=
  ∀ s t : State, BlockInv s → step s = .next t →
    (∃ rest, s.moves = .assertReset :: rest ∧ t.out = []) ∨ t.out = s.out ∨
      ∃ c i, enabled s.par s.cfg c = true ∧ i < tableLen s.par ∧
        t.out = s.out ++ [(s.cfg.dstOf c, s.tbl.get ⟨tableOf s.par c, i⟩)]

/-- R138 with no LOAD word presented: an accepted SEND delivers exactly the LEN pairs of its table in order, in LEN DRAIN moves,
whatever other commands, port values and samples fall between them. LOAD words that write another table or are rejected stand in
TransferOfASparedTableDeliversIt. -/
def Obligations.UnracedTransferDeliversTheTable : Prop :=
  ∀ (s : State) (ch : Channel) (ms rest : List Move),
    BlockInv s → s.ldActive = false → s.inited = true → enabled s.par s.cfg ch = true → s.rem = 0 →
    (∀ m ∈ ms, m.loadsNothing = true) → ms.count .drain + 1 = tableLen s.par →
    s.moves = .command (encode (.send ch)) :: (ms ++ .drain :: rest) →
    ∃ t, runSteps (ms.length + 2) s = .next t ∧ t.moves = rest ∧ t.rem = 0 ∧ t.tbl = s.tbl ∧
      t.out = s.out ++ deliveries (s.cfg.dstOf ch) s.tbl (tableOf s.par ch) 0 (tableLen s.par)

/-- R138: an accepted SEND whose table no LOAD writes before REM returns to 0 delivers exactly the LEN pairs of that table in order,
whatever falls between the DRAIN steps: other commands, rejected LOADs, and accepted LOADs of channels with another table (that
a command waits for the LOAD in progress is the model's choice, notes/assumptions/5.md). -/
def Obligations.TransferOfASparedTableDeliversIt : Prop :=
  ∀ (s : State) (ch : Channel) (ms rest : List Move),
    BlockInv s → s.ldActive = false → s.inited = true → enabled s.par s.cfg ch = true → s.rem = 0 →
    (∀ m ∈ ms, m.sparesTable s (tableOf s.par ch) = true) → ms.count .drain + 1 = tableLen s.par →
    s.moves = .command (encode (.send ch)) :: (ms ++ .drain :: rest) →
    ∃ n t, runSteps n s = .next t ∧ t.moves = rest ∧ t.rem = 0 ∧
      (∀ i, t.tbl.get ⟨tableOf s.par ch, i⟩ = s.tbl.get ⟨tableOf s.par ch, i⟩) ∧
      t.out = s.out ++ deliveries (s.cfg.dstOf ch) s.tbl (tableOf s.par ch) 0 (tableLen s.par)

/-- R123: a SEND of tables that were never loaded is accepted and delivers LEN zero entries, which raise no line in either
strategy (that the DRAIN steps follow with no move given is the model's choice, notes/assumptions/3.md; the lines are those of
notes/assumptions/17.md, for the duty strategy by R121's reading from general knowledge). -/
def Obligations.NeverLoadedTableSendsZeros : Prop :=
  (∀ (s : State) (ch : Channel),
      BlockInv s → s.ldActive = false → s.inited = true → enabled s.par s.cfg ch = true → s.rem = 0 → s.tbl = [] →
      s.moves = [.command (encode (.send ch))] →
      ∃ t, runSteps (tableLen s.par + 1) s = .next t ∧ Quiescent t ∧ t.responses = s.responses ++ [0#32] ∧
        t.out = s.out ++ List.replicate (tableLen s.par) (s.cfg.dstOf ch, 0)) ∧
    (∀ (pins : Half) (n : Nat), pinsAfter pins (List.replicate n 0) = pins) ∧
    ∀ (period n : Nat), true ∉ dutyWave period (List.replicate n 0)

/-- R137, under the fairness the spec assumes of the output resource: with no further moves of the host, the LOAD in progress
ends, the transfer in flight delivers its remaining entries, and the block is Idle after a bounded number of steps (the order and
the bound are the model's choice, notes/assumptions/3.md). -/
def Obligations.TransmittingIsFollowedByIdle : Prop :=
  ∀ s : State, BlockInv s → s.moves = [] →
    ∃ n t, n ≤ loadWrites s.par + 1 + s.rem.toNat ∧ runSteps n s = .next t ∧ Quiescent t ∧ t.rem = 0 ∧
      t.out.length = s.out.length + s.rem.toNat ∧ t.moves = [] ∧ (s.ldActive = false → t.tbl = s.tbl)

/-- The safe calling pattern end to end (70_reset_and_hazards.md R189): LOAD then SEND from Idle delivers exactly the expansion
of the encoded throttle, with both commands answered OK, and the block is Idle again (the SEND waits for the LOAD and the DRAIN
steps follow by the model's choice, notes/assumptions/3.md and notes/assumptions/5.md). -/
def Obligations.SafePatternDeliversTheFrame : Prop :=
  ∀ (s : State) (ch : Channel) (thr : Throttle),
    BlockInv s → s.ldActive = false → s.inited = true → enabled s.par s.cfg ch = true → s.rem = 0 →
    s.moves = [.command (encode (.load ch thr)), .command (encode (.send ch))] →
    ∃ t, runSteps (loadWrites s.par + tableLen s.par + 3) s = .next t ∧ Quiescent t ∧ t.moves = [] ∧
      t.responses = s.responses ++ [0#32, 0#32] ∧
      t.tbl = loadTable s.par s.cfg ch (encodeFrame thr) s.tbl ∧
      t.out = s.out ++
        deliveries (s.cfg.dstOf ch) (loadTable s.par s.cfg ch (encodeFrame thr) s.tbl) (tableOf s.par ch) 0
          (tableLen s.par)

/-! ### What the entries mean on the wire (41_waveform_table.md R121, R122) -/

/-- R122: in a transfer of a level-multiplex table in which a channel is loaded, its lines, low at the start, are high in each
protocol bit exactly from the rising to the falling sub-slot and low through the gap; lines no word names keep their levels (the
lines are functions of delivered entries by the model's choice, notes/assumptions/17.md). -/
def Obligations.LoadedChannelPulsesOnItsLines : Prop :=
  (∀ (p : Params) (g : CfgRecord) (c : Channel) (f : Frame) (m : Memory) (pins : Half) (n : Nat),
      p.wf → p.strategy = .levelMux → m.wf → (∀ i, 128 ≤ i → m.get ⟨0, i⟩ = 0) →
      pins &&& g.maskOf c = 0 → n < tableLen p →
      pinsAfter pins ((List.range (n + 1)).map fun i => entryAt (loadTable p g c f m) 0 i) &&& g.maskOf c =
        if n < 128 ∧ riseSlot p (f.getLsbD (15 - n / 8)) ≤ n % 8 ∧ n % 8 < fallSlot p (f.getLsbD (15 - n / 8))
        then g.maskOf c else 0) ∧
    ∀ (pins k : Half) (ws : List Entry), (∀ w ∈ ws, w &&& channelBits k = 0) → pinsAfter pins ws &&& k = pins &&& k

/-- R121's reading of a compare threshold, which the spec marks as from general knowledge and not in its source
(notes/assumptions/17.md, PRESUMED and DESIGN CHOICE): with a carrier period no shorter than the longest entry, the wave of a duty
table is high for the first d ticks of the period of an entry d and low for the rest of it. -/
def Obligations.DutyWaveIsHighForTheEntry : Prop :=
  ∀ (period : Nat) (ds : List (BitVec 16)) (j k : Nat),
    (∀ d ∈ ds, d.toNat ≤ period) → k < period → ∀ h : j < ds.length,
    (dutyWave period (ds.map (BitVec.setWidth 32)))[j * period + k]? = some (decide (k < ds[j].toNat)) ∧
      (dutyWave period (ds.map (BitVec.setWidth 32))).count true = (ds.map BitVec.toNat).sum

/-! ### The machine as a whole (10_state.md, 20_memory.md, 70_reset_and_hazards.md) -/

/-- Every step keeps the invariant. -/
def Obligations.StepKeepsTheInvariant : Prop :=
  ∀ s t : State, BlockInv s → step s = .next t → BlockInv t

/-- The reset state of every instance has the invariant, whatever the ports and the moves are. -/
def Obligations.ResetHasTheInvariant : Prop :=
  ∀ (p : Params) (q : CfgPorts) (ms : List Move), p.wf → BlockInv { State.resetOf p with ports := q, moves := ms }

/-- R33: the clauses (a) to (g) hold in every state reachable from the reset of any instance, under any ports and moves. -/
def Obligations.ReachableStatesHaveTheirInvariants : Prop :=
  ∀ (p : Params) (q : CfgPorts) (ms : List Move) (n : Nat) (s : State),
    p.wf → runSteps n { State.resetOf p with ports := q, moves := ms } = .next s →
    (s.rem.toNat ≤ s.orLen.toNat ∧ s.orLen.toNat ≤ tableLen p ∧ (s.orLen = 0 ∨ s.orLen.toNat = tableLen p)) ∧
      (s.rem ≠ 0 → s.orEn = true ∧ s.inited = true ∧ s.orLen.toNat = tableLen p ∧ s.orSrc.toNat < tableCount p) ∧
      (s.inited = false → (∀ a, s.tbl.get a = 0) ∧ s.rem = 0) ∧
      (∀ t i, loadWrites p ≤ i → s.tbl.get ⟨t, i⟩ = 0) ∧
      (p.strategy = .duty → ∀ c i, s.tbl.get ⟨c, i⟩ = 0 ∨
        s.tbl.get ⟨c, i⟩ = (calOf p s.cfg.speed).1.setWidth 32 ∨
        s.tbl.get ⟨c, i⟩ = (calOf p s.cfg.speed).2.setWidth 32) ∧
      (p.strategy = .levelMux → ∀ i,
        setHalf (s.tbl.get ⟨0, i⟩) &&& clrHalf (s.tbl.get ⟨0, i⟩) = 0 ∧
          (setHalf (s.tbl.get ⟨0, i⟩) ||| clrHalf (s.tbl.get ⟨0, i⟩)) &&& ~~~enMask p s.cfg = 0) ∧
      (s.ldActive = true → s.inited = true ∧ enabled p s.cfg s.ldCh = true)

/-- R44: every index a rule computes is in range: the entry a LOAD writes next, the entry a DRAIN delivers, and the table of every
channel a LOAD or a SEND accepts. -/
def Obligations.IndicesAreInRange : Prop :=
  ∀ s : State, BlockInv s →
    (s.ldActive = true → s.ldIdx.toNat < loadWrites s.par →
      EntryExists s.par (tableOf s.par s.ldCh) s.ldIdx.toNat) ∧
      (s.rem ≠ 0 → 1 ≤ s.rem.toNat ∧ s.rem.toNat ≤ s.orLen.toNat ∧ s.orLen.toNat = tableLen s.par ∧
        EntryExists s.par s.orSrc.toNat (s.orLen.toNat - s.rem.toNat)) ∧
      ∀ c : Channel, enabled s.par s.cfg c = true → tableOf s.par c < tableCount s.par

/-- No step faults or is refused, in any state: no rule has an out-of-range arm (R44), and every command is answered. -/
def Obligations.NoStepFaults : Prop :=
  ∀ s : State, ∃ t, step s = .next t

/-- R32 and R180: `rst` puts every piece of state to its reset value in one step, in every state and with anything in progress,
without a response, and it is the only way back to INITED = 0. -/
def Obligations.ResetClearsEverything : Prop :=
  (∀ (s : State) (rest : List Move), s.moves = .assertReset :: rest →
    ∃ t, step s = .next t ∧
      t.inited = false ∧ t.cfg.speed = 0 ∧ (∀ c : Channel, t.cfg.enOf c = false ∧ t.cfg.dstOf c = 0 ∧ t.cfg.maskOf c = 0) ∧
      (∀ a, t.tbl.get a = 0) ∧ t.orEn = false ∧ t.orSrc = 0 ∧ t.orDst = 0 ∧ t.orLen = 0 ∧ t.rem = 0 ∧
      t.ldActive = false ∧ t.ldCh = 0 ∧ t.ldFrame = 0 ∧ t.ldIdx = 0 ∧ t.out = [] ∧ t.rsp = none ∧
      t.busy = false ∧ t.outputs = ⟨false, false, 0⟩) ∧
    ∀ s t : State, step s = .next t → s.inited = true → t.inited = false → ∃ rest, s.moves = .assertReset :: rest

/-- What `rst` leaves alone: the parameters, what the host drives, what it has observed and its remaining moves (the model's
choice, notes/assumptions/12.md). -/
def Obligations.ResetLeavesTheHostAlone : Prop :=
  ∀ (s : State) (rest : List Move), s.moves = .assertReset :: rest →
    ∃ t, step s = .next t ∧
      t.par = s.par ∧ t.ports = s.ports ∧ t.responses = s.responses ∧ t.samples = s.samples ∧ t.moves = rest

/-- R25, R51: only an accepted INIT, `rst` and the entry write of a LOAD change the table memory, and that write changes one
entry, and in the level-multiplex strategy only the channel's own bits of it. -/
def Obligations.OnlyInitAndLoadWriteTables : Prop :=
  ∀ s t : State, BlockInv s → step s = .next t →
    t.tbl = s.tbl ∨
      (t.tbl = [] ∧ ((∃ rest, s.moves = .assertReset :: rest) ∨
        (s.inited = false ∧ ∃ rest, s.moves = .command 0x10000000#32 :: rest))) ∨
      (s.ldActive = true ∧
        (∀ a : Addr, a ≠ ⟨tableOf s.par s.ldCh, s.ldIdx.toNat⟩ → t.tbl.get a = s.tbl.get a) ∧
        (s.par.strategy = .levelMux → ∀ a : Addr,
          t.tbl.get a &&& ~~~channelBits (s.cfg.maskOf s.ldCh) =
            s.tbl.get a &&& ~~~channelBits (s.cfg.maskOf s.ldCh)))

/-- R45, R47: an entry reads as the latest value written to it, and a write changes no other entry and nothing else. It is said for
every pair (t, i), those of the address space among them (that a pair outside it reads and writes too is the model's choice,
notes/assumptions/10.md; no step computes one, IndicesAreInRange). -/
def Obligations.EntryReadsItsLatestWrite : Prop :=
  ∀ (s : State) (t i : Nat) (v : Entry), s.tbl.wf →
    writeEntry s t i v = { s with tbl := (writeEntry s t i v).tbl } ∧ (writeEntry s t i v).tbl.wf ∧
      readEntry (writeEntry s t i v) t i = v ∧
      ∀ t' i', (t', i') ≠ (t, i) → readEntry (writeEntry s t i v) t' i' = readEntry s t' i'

/-- Two canonical memories that read the same everywhere are the same list (the form is the model's choice,
notes/assumptions/8.md). -/
def Obligations.EqualReadsMeanEqualMemories : Prop :=
  ∀ m m' : Memory, m.wf → m'.wf → (∀ a, m.get a = m'.get a) → m = m'

/-- The outputs `busy`, `inited` and `rem` at the moment the host samples them: BUSY is REM ≠ 0, and sampling changes nothing
else. -/
def Obligations.SampleShowsTheOutputs : Prop :=
  ∀ (s : State) (rest : List Move), s.moves = .sample :: rest →
    step s = .next { s with
      moves := rest, rsp := none, samples := s.samples ++ [⟨decide (s.rem ≠ 0), s.inited, s.rem⟩] }
end

