-- ==== Sys2Proof/Laws/Command.lean ====
section
/-! SUPPORT. The command word bit by bit, and its four fields. -/

namespace Sys2Proof

theorem getLsbD_commandWord (op : BitVec 4) (ch : Channel) (thr : Throttle) (i : Nat) :
    (commandWord op ch thr).getLsbD i =
      if i < 16 then thr.getLsbD i else if i < 24 then false
      else if i < 28 then ch.getLsbD (i - 24) else op.getLsbD (i - 28) := by
  simp only [commandWord, BitVec.getLsbD_append]
  by_cases h1 : i < 16
  · simp only [h1, if_true]
  by_cases h2 : i < 24
  · simp only [h1, h2, show i - 16 < 8 by omega, if_true, if_false]; simp
  by_cases h3 : i < 28
  · simp only [h1, h2, h3, show ¬i - 16 < 8 by omega, show i - 16 - 8 < 4 by omega, if_true, if_false]
    rw [show i - 16 - 8 = i - 24 by omega]
  · simp only [h1, h2, h3, show ¬i - 16 < 8 by omega, show ¬i - 16 - 8 < 4 by omega, if_false]
    rw [show i - 16 - 8 - 4 = i - 28 by omega]

@[simp] theorem fieldOp_commandWord (op : BitVec 4) (ch : Channel) (thr : Throttle) :
    fieldOp (commandWord op ch thr) = op := by
  refine BitVec.eq_of_getLsbD_eq fun i hi => ?_
  rw [fieldOp, BitVec.getLsbD_extractLsb', getLsbD_commandWord]
  simp only [hi, decide_true, Bool.true_and, show ¬28 + i < 16 by omega, show ¬28 + i < 24 by omega,
    show ¬28 + i < 28 by omega, if_false, Nat.add_sub_cancel_left]

@[simp] theorem fieldCh_commandWord (op : BitVec 4) (ch : Channel) (thr : Throttle) :
    fieldCh (commandWord op ch thr) = ch := by
  refine BitVec.eq_of_getLsbD_eq fun i hi => ?_
  rw [fieldCh, BitVec.getLsbD_extractLsb', getLsbD_commandWord]
  simp only [hi, decide_true, Bool.true_and, show ¬24 + i < 16 by omega, show ¬24 + i < 24 by omega,
    show 24 + i < 28 by omega, if_true, if_false, Nat.add_sub_cancel_left]

@[simp] theorem fieldZ_commandWord (op : BitVec 4) (ch : Channel) (thr : Throttle) :
    fieldZ (commandWord op ch thr) = 0 := by
  refine BitVec.eq_of_getLsbD_eq fun i hi => ?_
  rw [fieldZ, BitVec.getLsbD_extractLsb', getLsbD_commandWord]
  simp only [show ¬16 + i < 16 by omega, show 16 + i < 24 by omega, if_true, if_false]
  simp

@[simp] theorem fieldThr_commandWord (op : BitVec 4) (ch : Channel) (thr : Throttle) :
    fieldThr (commandWord op ch thr) = thr := by
  refine BitVec.eq_of_getLsbD_eq fun i hi => ?_
  rw [fieldThr, BitVec.getLsbD_extractLsb', getLsbD_commandWord]
  simp only [hi, decide_true, Bool.true_and, Nat.zero_add, if_true]

end Sys2Proof
end

