-- ==== Sys2Proof/Laws/Memory.lean ====
section
/-! SUPPORT. The table memory as a map from addresses to entries, and its canonical form. -/

namespace Sys2Proof.Machine

theorem Addr.lt_irrefl (a : Addr) : ¬a.lt a := by simp [Addr.lt]

theorem Addr.lt_trans {a b c : Addr} (h : a.lt b) (k : b.lt c) : a.lt c := by
  simp only [Addr.lt] at *; omega

theorem Addr.lt_of_not_lt {a b : Addr} (h : ¬a.lt b) (k : a ≠ b) : b.lt a := by
  cases a; cases b; simp only [Addr.lt, Addr.mk.injEq, ne_eq] at *; omega

@[simp] theorem Memory.get_nil (a : Addr) : Memory.get [] a = 0 := rfl

theorem Memory.get_cons (b a : Addr) (v : Entry) (m : Memory) :
    Memory.get ((b, v) :: m) a = if a = b then v else Memory.get m a := rfl

/-- An address below every listed one is unlisted and reads as 0. -/
theorem Memory.get_eq_zero_of_lt {m : Memory} {a : Addr} (h : ∀ c ∈ m, a.lt c.1) : m.get a = 0 := by
  induction m with
  | nil => rfl
  | cons c m ih =>
    obtain ⟨b, v⟩ := c
    have hb := h (b, v) (by simp)
    have hne : a ≠ b := by rintro rfl; exact Addr.lt_irrefl _ hb
    rw [Memory.get_cons, if_neg hne]
    exact ih fun c hc => h c (by simp [hc])

/-- What is not 0 is listed. -/
theorem Memory.mem_of_get_ne_zero {m : Memory} {a : Addr} (h : m.get a ≠ 0) : (a, m.get a) ∈ m := by
  induction m with
  | nil => simp at h
  | cons c m ih =>
    obtain ⟨b, v⟩ := c
    rw [Memory.get_cons] at h ⊢
    split at h
    · next hab => subst hab; simp
    · next hab => rw [if_neg hab]; exact List.mem_cons_of_mem _ (ih h)

/-- What is listed reads as it is listed. -/
theorem Memory.get_of_mem {m : Memory} (hm : m.wf) {a : Addr} {v : Entry} (h : (a, v) ∈ m) : m.get a = v := by
  induction m with
  | nil => simp at h
  | cons c m ih =>
    obtain ⟨b, w⟩ := c
    rw [Memory.get_cons]
    obtain ⟨hp, hn⟩ := hm
    rw [List.pairwise_cons] at hp
    rcases List.mem_cons.1 h with h | h
    · cases h; simp
    · have hlt := hp.1 _ h
      have hne : a ≠ b := by rintro rfl; exact Addr.lt_irrefl _ hlt
      rw [if_neg hne]
      exact ih ⟨hp.2, fun c hc => hn c (by simp [hc])⟩ h

/-- The only new cell a write lists is the one it wrote. -/
theorem Memory.mem_put {m : Memory} {a : Addr} {v : Entry} {c : TableCell} (h : c ∈ m.put a v) :
    c ∈ m ∨ (c = (a, v) ∧ v ≠ 0) := by
  induction m with
  | nil =>
    simp only [Memory.put] at h
    split at h <;> simp_all
  | cons d m ih =>
    obtain ⟨b, w⟩ := d
    simp only [Memory.put] at h
    split at h
    · split at h <;> simp_all
      tauto
    · split at h
      · split at h <;> simp_all
        tauto
      · rcases List.mem_cons.1 h with h | h
        · simp [h]
        · rcases ih h with h | h
          · exact .inl (List.mem_cons_of_mem _ h)
          · exact .inr h

/-- Every write keeps the canonical form. -/
theorem Memory.put_wf {m : Memory} (hm : m.wf) (a : Addr) (v : Entry) : (m.put a v).wf := by
  induction m with
  | nil =>
    simp only [Memory.put]
    split <;> simp_all [Memory.wf]
  | cons d m ih =>
    obtain ⟨b, w⟩ := d
    obtain ⟨hp, hn⟩ := hm
    have hp' := List.pairwise_cons.1 hp
    have hm' : Memory.wf m := ⟨hp'.2, fun c hc => hn c (by simp [hc])⟩
    simp only [Memory.put]
    split
    · next hab =>
      split
      · exact ⟨hp, hn⟩
      · next hv =>
        refine ⟨List.pairwise_cons.2 ⟨?_, hp⟩, ?_⟩
        · intro c hc
          rcases List.mem_cons.1 hc with rfl | hc
          · exact hab
          · exact Addr.lt_trans hab (hp'.1 c hc)
        · intro c hc
          rcases List.mem_cons.1 hc with rfl | hc
          · exact hv
          · exact hn c hc
    · next hab =>
      split
      · next he =>
        subst he
        split
        · exact hm'
        · next hv =>
          refine ⟨List.pairwise_cons.2 ⟨hp'.1, hp'.2⟩, ?_⟩
          intro c hc
          rcases List.mem_cons.1 hc with rfl | hc
          · exact hv
          · exact hm'.2 c hc
      · next he =>
        have hba := Addr.lt_of_not_lt hab he
        refine ⟨List.pairwise_cons.2 ⟨?_, (ih hm').1⟩, ?_⟩
        · intro c hc
          rcases Memory.mem_put hc with hc | ⟨rfl, -⟩
          · exact hp'.1 c hc
          · exact hba
        · intro c hc
          rcases List.mem_cons.1 hc with rfl | hc
          · exact hn (b, w) (by simp)
          · exact (ih hm').2 c hc

/-- A write changes the entry it names and no other. -/
theorem Memory.get_put {m : Memory} (hm : m.wf) (a b : Addr) (v : Entry) :
    (m.put a v).get b = if b = a then v else m.get b := by
  induction m with
  | nil =>
    simp only [Memory.put]
    split
    · next hv => simp [hv]
    · simp [Memory.get_cons]
  | cons d m ih =>
    obtain ⟨c, w⟩ := d
    obtain ⟨hp, hn⟩ := hm
    have hp' := List.pairwise_cons.1 hp
    have hm' : Memory.wf m := ⟨hp'.2, fun c hc => hn c (by simp [hc])⟩
    simp only [Memory.put]
    split
    · next hac =>
      split
      · next hv =>
        split
        · next hba =>
          subst hba; subst hv
          exact Memory.get_eq_zero_of_lt (m := (c, w) :: m) fun d hd => by
            rcases List.mem_cons.1 hd with rfl | hd
            · exact hac
            · exact Addr.lt_trans hac (hp'.1 d hd)
        · rfl
      · rw [Memory.get_cons]
    · next hac =>
      split
      · next he =>
        subst he
        split
        · next hv =>
          rw [Memory.get_cons]
          split
          · next hba =>
            subst hba; subst hv
            exact Memory.get_eq_zero_of_lt hp'.1
          · rfl
        · rw [Memory.get_cons, Memory.get_cons]
          split <;> rfl
      · next he =>
        rw [Memory.get_cons, Memory.get_cons, ih hm']
        by_cases hbc : b = c
        · subst hbc; simp [Ne.symm he]
        · simp [hbc]

theorem Memory.get_put_same {m : Memory} (hm : m.wf) (a : Addr) (v : Entry) : (m.put a v).get a = v := by
  simp [Memory.get_put hm]

theorem Memory.get_put_other {m : Memory} (hm : m.wf) {a b : Addr} (h : b ≠ a) (v : Entry) :
    (m.put a v).get b = m.get b := by
  simp [Memory.get_put hm, h]

theorem Memory.nil_wf : Memory.wf [] := by simp [Memory.wf]

end Sys2Proof.Machine
end

