-- ==== Sys2Proof/Laws/State.lean ====
section
/-! SUPPORT. One lemma per field per update of the state, each true by rfl. -/

namespace Sys2Proof.Machine

@[simp] theorem quiet_par (s : State) : s.quiet.par = s.par := rfl
@[simp] theorem quiet_inited (s : State) : s.quiet.inited = s.inited := rfl
@[simp] theorem quiet_cfg (s : State) : s.quiet.cfg = s.cfg := rfl
@[simp] theorem quiet_tbl (s : State) : s.quiet.tbl = s.tbl := rfl
@[simp] theorem quiet_orEn (s : State) : s.quiet.orEn = s.orEn := rfl
@[simp] theorem quiet_orSrc (s : State) : s.quiet.orSrc = s.orSrc := rfl
@[simp] theorem quiet_orDst (s : State) : s.quiet.orDst = s.orDst := rfl
@[simp] theorem quiet_orLen (s : State) : s.quiet.orLen = s.orLen := rfl
@[simp] theorem quiet_rem (s : State) : s.quiet.rem = s.rem := rfl
@[simp] theorem quiet_ldActive (s : State) : s.quiet.ldActive = s.ldActive := rfl
@[simp] theorem quiet_ldCh (s : State) : s.quiet.ldCh = s.ldCh := rfl
@[simp] theorem quiet_ldFrame (s : State) : s.quiet.ldFrame = s.ldFrame := rfl
@[simp] theorem quiet_ldIdx (s : State) : s.quiet.ldIdx = s.ldIdx := rfl
@[simp] theorem quiet_out (s : State) : s.quiet.out = s.out := rfl
@[simp] theorem quiet_ports (s : State) : s.quiet.ports = s.ports := rfl
@[simp] theorem quiet_rsp (s : State) : s.quiet.rsp = none := rfl
@[simp] theorem quiet_responses (s : State) : s.quiet.responses = s.responses := rfl
@[simp] theorem quiet_samples (s : State) : s.quiet.samples = s.samples := rfl
@[simp] theorem quiet_moves (s : State) : s.quiet.moves = s.moves := rfl

@[simp] theorem respond_par (st : Status) (f : Frame) (s : State) : (respond st f s).par = s.par := rfl
@[simp] theorem respond_inited (st : Status) (f : Frame) (s : State) : (respond st f s).inited = s.inited := rfl
@[simp] theorem respond_cfg (st : Status) (f : Frame) (s : State) : (respond st f s).cfg = s.cfg := rfl
@[simp] theorem respond_tbl (st : Status) (f : Frame) (s : State) : (respond st f s).tbl = s.tbl := rfl
@[simp] theorem respond_orEn (st : Status) (f : Frame) (s : State) : (respond st f s).orEn = s.orEn := rfl
@[simp] theorem respond_orSrc (st : Status) (f : Frame) (s : State) : (respond st f s).orSrc = s.orSrc := rfl
@[simp] theorem respond_orDst (st : Status) (f : Frame) (s : State) : (respond st f s).orDst = s.orDst := rfl
@[simp] theorem respond_orLen (st : Status) (f : Frame) (s : State) : (respond st f s).orLen = s.orLen := rfl
@[simp] theorem respond_rem (st : Status) (f : Frame) (s : State) : (respond st f s).rem = s.rem := rfl
@[simp] theorem respond_ldActive (st : Status) (f : Frame) (s : State) : (respond st f s).ldActive = s.ldActive := rfl
@[simp] theorem respond_ldCh (st : Status) (f : Frame) (s : State) : (respond st f s).ldCh = s.ldCh := rfl
@[simp] theorem respond_ldFrame (st : Status) (f : Frame) (s : State) : (respond st f s).ldFrame = s.ldFrame := rfl
@[simp] theorem respond_ldIdx (st : Status) (f : Frame) (s : State) : (respond st f s).ldIdx = s.ldIdx := rfl
@[simp] theorem respond_out (st : Status) (f : Frame) (s : State) : (respond st f s).out = s.out := rfl
@[simp] theorem respond_ports (st : Status) (f : Frame) (s : State) : (respond st f s).ports = s.ports := rfl
@[simp] theorem respond_rsp (st : Status) (f : Frame) (s : State) : (respond st f s).rsp = some (responseWord st f) := rfl
@[simp] theorem respond_responses (st : Status) (f : Frame) (s : State) : (respond st f s).responses = s.responses ++ [responseWord st f] := rfl
@[simp] theorem respond_samples (st : Status) (f : Frame) (s : State) : (respond st f s).samples = s.samples := rfl
@[simp] theorem respond_moves (st : Status) (f : Frame) (s : State) : (respond st f s).moves = s.moves := rfl

@[simp] theorem writeEntry_par (s : State) (t i : Nat) (v : Entry) : (writeEntry s t i v).par = s.par := rfl
@[simp] theorem writeEntry_inited (s : State) (t i : Nat) (v : Entry) : (writeEntry s t i v).inited = s.inited := rfl
@[simp] theorem writeEntry_cfg (s : State) (t i : Nat) (v : Entry) : (writeEntry s t i v).cfg = s.cfg := rfl
@[simp] theorem writeEntry_orEn (s : State) (t i : Nat) (v : Entry) : (writeEntry s t i v).orEn = s.orEn := rfl
@[simp] theorem writeEntry_orSrc (s : State) (t i : Nat) (v : Entry) : (writeEntry s t i v).orSrc = s.orSrc := rfl
@[simp] theorem writeEntry_orDst (s : State) (t i : Nat) (v : Entry) : (writeEntry s t i v).orDst = s.orDst := rfl
@[simp] theorem writeEntry_orLen (s : State) (t i : Nat) (v : Entry) : (writeEntry s t i v).orLen = s.orLen := rfl
@[simp] theorem writeEntry_rem (s : State) (t i : Nat) (v : Entry) : (writeEntry s t i v).rem = s.rem := rfl
@[simp] theorem writeEntry_ldActive (s : State) (t i : Nat) (v : Entry) : (writeEntry s t i v).ldActive = s.ldActive := rfl
@[simp] theorem writeEntry_ldCh (s : State) (t i : Nat) (v : Entry) : (writeEntry s t i v).ldCh = s.ldCh := rfl
@[simp] theorem writeEntry_ldFrame (s : State) (t i : Nat) (v : Entry) : (writeEntry s t i v).ldFrame = s.ldFrame := rfl
@[simp] theorem writeEntry_ldIdx (s : State) (t i : Nat) (v : Entry) : (writeEntry s t i v).ldIdx = s.ldIdx := rfl
@[simp] theorem writeEntry_ports (s : State) (t i : Nat) (v : Entry) : (writeEntry s t i v).ports = s.ports := rfl
@[simp] theorem writeEntry_rsp (s : State) (t i : Nat) (v : Entry) : (writeEntry s t i v).rsp = s.rsp := rfl
@[simp] theorem writeEntry_responses (s : State) (t i : Nat) (v : Entry) : (writeEntry s t i v).responses = s.responses := rfl
@[simp] theorem writeEntry_samples (s : State) (t i : Nat) (v : Entry) : (writeEntry s t i v).samples = s.samples := rfl
@[simp] theorem writeEntry_moves (s : State) (t i : Nat) (v : Entry) : (writeEntry s t i v).moves = s.moves := rfl
@[simp] theorem writeEntry_out (s : State) (t i : Nat) (v : Entry) : (writeEntry s t i v).out = s.out := rfl
@[simp] theorem writeEntry_tbl (s : State) (t i : Nat) (v : Entry) :
    (writeEntry s t i v).tbl = s.tbl.put ⟨t, i⟩ v := rfl

@[simp] theorem emit_par (d : Dest) (v : Entry) (s : State) : (emit d v s).par = s.par := rfl
@[simp] theorem emit_inited (d : Dest) (v : Entry) (s : State) : (emit d v s).inited = s.inited := rfl
@[simp] theorem emit_cfg (d : Dest) (v : Entry) (s : State) : (emit d v s).cfg = s.cfg := rfl
@[simp] theorem emit_tbl (d : Dest) (v : Entry) (s : State) : (emit d v s).tbl = s.tbl := rfl
@[simp] theorem emit_orEn (d : Dest) (v : Entry) (s : State) : (emit d v s).orEn = s.orEn := rfl
@[simp] theorem emit_orSrc (d : Dest) (v : Entry) (s : State) : (emit d v s).orSrc = s.orSrc := rfl
@[simp] theorem emit_orDst (d : Dest) (v : Entry) (s : State) : (emit d v s).orDst = s.orDst := rfl
@[simp] theorem emit_orLen (d : Dest) (v : Entry) (s : State) : (emit d v s).orLen = s.orLen := rfl
@[simp] theorem emit_rem (d : Dest) (v : Entry) (s : State) : (emit d v s).rem = s.rem := rfl
@[simp] theorem emit_ldActive (d : Dest) (v : Entry) (s : State) : (emit d v s).ldActive = s.ldActive := rfl
@[simp] theorem emit_ldCh (d : Dest) (v : Entry) (s : State) : (emit d v s).ldCh = s.ldCh := rfl
@[simp] theorem emit_ldFrame (d : Dest) (v : Entry) (s : State) : (emit d v s).ldFrame = s.ldFrame := rfl
@[simp] theorem emit_ldIdx (d : Dest) (v : Entry) (s : State) : (emit d v s).ldIdx = s.ldIdx := rfl
@[simp] theorem emit_out (d : Dest) (v : Entry) (s : State) : (emit d v s).out = s.out ++ [(d, v)] := rfl
@[simp] theorem emit_ports (d : Dest) (v : Entry) (s : State) : (emit d v s).ports = s.ports := rfl
@[simp] theorem emit_rsp (d : Dest) (v : Entry) (s : State) : (emit d v s).rsp = s.rsp := rfl
@[simp] theorem emit_responses (d : Dest) (v : Entry) (s : State) : (emit d v s).responses = s.responses := rfl
@[simp] theorem emit_samples (d : Dest) (v : Entry) (s : State) : (emit d v s).samples = s.samples := rfl
@[simp] theorem emit_moves (d : Dest) (v : Entry) (s : State) : (emit d v s).moves = s.moves := rfl

@[simp] theorem latchConfig_par (s : State) : (latchConfig s).par = s.par := rfl
@[simp] theorem latchConfig_inited (s : State) : (latchConfig s).inited = true := rfl
@[simp] theorem latchConfig_cfg (s : State) : (latchConfig s).cfg = latchedCfg s.par s.ports s.cfg := rfl
@[simp] theorem latchConfig_tbl (s : State) : (latchConfig s).tbl = [] := rfl
@[simp] theorem latchConfig_orEn (s : State) : (latchConfig s).orEn = s.orEn := rfl
@[simp] theorem latchConfig_orSrc (s : State) : (latchConfig s).orSrc = s.orSrc := rfl
@[simp] theorem latchConfig_orDst (s : State) : (latchConfig s).orDst = s.orDst := rfl
@[simp] theorem latchConfig_orLen (s : State) : (latchConfig s).orLen = s.orLen := rfl
@[simp] theorem latchConfig_rem (s : State) : (latchConfig s).rem = s.rem := rfl
@[simp] theorem latchConfig_ldActive (s : State) : (latchConfig s).ldActive = s.ldActive := rfl
@[simp] theorem latchConfig_ldCh (s : State) : (latchConfig s).ldCh = s.ldCh := rfl
@[simp] theorem latchConfig_ldFrame (s : State) : (latchConfig s).ldFrame = s.ldFrame := rfl
@[simp] theorem latchConfig_ldIdx (s : State) : (latchConfig s).ldIdx = s.ldIdx := rfl
@[simp] theorem latchConfig_out (s : State) : (latchConfig s).out = s.out := rfl
@[simp] theorem latchConfig_ports (s : State) : (latchConfig s).ports = s.ports := rfl
@[simp] theorem latchConfig_rsp (s : State) : (latchConfig s).rsp = s.rsp := rfl
@[simp] theorem latchConfig_responses (s : State) : (latchConfig s).responses = s.responses := rfl
@[simp] theorem latchConfig_samples (s : State) : (latchConfig s).samples = s.samples := rfl
@[simp] theorem latchConfig_moves (s : State) : (latchConfig s).moves = s.moves := rfl

@[simp] theorem beginLoad_par (ch : Channel) (f : Frame) (s : State) : (beginLoad ch f s).par = s.par := rfl
@[simp] theorem beginLoad_inited (ch : Channel) (f : Frame) (s : State) : (beginLoad ch f s).inited = s.inited := rfl
@[simp] theorem beginLoad_cfg (ch : Channel) (f : Frame) (s : State) : (beginLoad ch f s).cfg = s.cfg := rfl
@[simp] theorem beginLoad_tbl (ch : Channel) (f : Frame) (s : State) : (beginLoad ch f s).tbl = s.tbl := rfl
@[simp] theorem beginLoad_orEn (ch : Channel) (f : Frame) (s : State) : (beginLoad ch f s).orEn = s.orEn := rfl
@[simp] theorem beginLoad_orSrc (ch : Channel) (f : Frame) (s : State) : (beginLoad ch f s).orSrc = s.orSrc := rfl
@[simp] theorem beginLoad_orDst (ch : Channel) (f : Frame) (s : State) : (beginLoad ch f s).orDst = s.orDst := rfl
@[simp] theorem beginLoad_orLen (ch : Channel) (f : Frame) (s : State) : (beginLoad ch f s).orLen = s.orLen := rfl
@[simp] theorem beginLoad_rem (ch : Channel) (f : Frame) (s : State) : (beginLoad ch f s).rem = s.rem := rfl
@[simp] theorem beginLoad_ldActive (ch : Channel) (f : Frame) (s : State) : (beginLoad ch f s).ldActive = true := rfl
@[simp] theorem beginLoad_ldCh (ch : Channel) (f : Frame) (s : State) : (beginLoad ch f s).ldCh = ch := rfl
@[simp] theorem beginLoad_ldFrame (ch : Channel) (f : Frame) (s : State) : (beginLoad ch f s).ldFrame = f := rfl
@[simp] theorem beginLoad_ldIdx (ch : Channel) (f : Frame) (s : State) : (beginLoad ch f s).ldIdx = 0 := rfl
@[simp] theorem beginLoad_out (ch : Channel) (f : Frame) (s : State) : (beginLoad ch f s).out = s.out := rfl
@[simp] theorem beginLoad_ports (ch : Channel) (f : Frame) (s : State) : (beginLoad ch f s).ports = s.ports := rfl
@[simp] theorem beginLoad_rsp (ch : Channel) (f : Frame) (s : State) : (beginLoad ch f s).rsp = s.rsp := rfl
@[simp] theorem beginLoad_responses (ch : Channel) (f : Frame) (s : State) : (beginLoad ch f s).responses = s.responses := rfl
@[simp] theorem beginLoad_samples (ch : Channel) (f : Frame) (s : State) : (beginLoad ch f s).samples = s.samples := rfl
@[simp] theorem beginLoad_moves (ch : Channel) (f : Frame) (s : State) : (beginLoad ch f s).moves = s.moves := rfl

@[simp] theorem finishLoad_par (s : State) : (finishLoad s).par = s.par := rfl
@[simp] theorem finishLoad_inited (s : State) : (finishLoad s).inited = s.inited := rfl
@[simp] theorem finishLoad_cfg (s : State) : (finishLoad s).cfg = s.cfg := rfl
@[simp] theorem finishLoad_tbl (s : State) : (finishLoad s).tbl = s.tbl := rfl
@[simp] theorem finishLoad_orEn (s : State) : (finishLoad s).orEn = s.orEn := rfl
@[simp] theorem finishLoad_orSrc (s : State) : (finishLoad s).orSrc = s.orSrc := rfl
@[simp] theorem finishLoad_orDst (s : State) : (finishLoad s).orDst = s.orDst := rfl
@[simp] theorem finishLoad_orLen (s : State) : (finishLoad s).orLen = s.orLen := rfl
@[simp] theorem finishLoad_rem (s : State) : (finishLoad s).rem = s.rem := rfl
@[simp] theorem finishLoad_ldActive (s : State) : (finishLoad s).ldActive = false := rfl
@[simp] theorem finishLoad_ldCh (s : State) : (finishLoad s).ldCh = s.ldCh := rfl
@[simp] theorem finishLoad_ldFrame (s : State) : (finishLoad s).ldFrame = s.ldFrame := rfl
@[simp] theorem finishLoad_ldIdx (s : State) : (finishLoad s).ldIdx = s.ldIdx := rfl
@[simp] theorem finishLoad_out (s : State) : (finishLoad s).out = s.out := rfl
@[simp] theorem finishLoad_ports (s : State) : (finishLoad s).ports = s.ports := rfl
@[simp] theorem finishLoad_rsp (s : State) : (finishLoad s).rsp = some (responseWord .ok 0) := rfl
@[simp] theorem finishLoad_responses (s : State) : (finishLoad s).responses = s.responses ++ [responseWord .ok 0] := rfl
@[simp] theorem finishLoad_samples (s : State) : (finishLoad s).samples = s.samples := rfl
@[simp] theorem finishLoad_moves (s : State) : (finishLoad s).moves = s.moves := rfl

@[simp] theorem startTransfer_par (ch : Channel) (s : State) : (startTransfer ch s).par = s.par := rfl
@[simp] theorem startTransfer_inited (ch : Channel) (s : State) : (startTransfer ch s).inited = s.inited := rfl
@[simp] theorem startTransfer_cfg (ch : Channel) (s : State) : (startTransfer ch s).cfg = s.cfg := rfl
@[simp] theorem startTransfer_tbl (ch : Channel) (s : State) : (startTransfer ch s).tbl = s.tbl := rfl
@[simp] theorem startTransfer_orEn (ch : Channel) (s : State) : (startTransfer ch s).orEn = true := rfl
@[simp] theorem startTransfer_orSrc (ch : Channel) (s : State) : (startTransfer ch s).orSrc = BitVec.ofNat 4 (tableOf s.par ch) := rfl
@[simp] theorem startTransfer_orDst (ch : Channel) (s : State) : (startTransfer ch s).orDst = s.cfg.dstOf ch := rfl
@[simp] theorem startTransfer_orLen (ch : Channel) (s : State) : (startTransfer ch s).orLen = BitVec.ofNat 16 (tableLen s.par) := rfl
@[simp] theorem startTransfer_rem (ch : Channel) (s : State) : (startTransfer ch s).rem = BitVec.ofNat 16 (tableLen s.par) := rfl
@[simp] theorem startTransfer_ldActive (ch : Channel) (s : State) : (startTransfer ch s).ldActive = s.ldActive := rfl
@[simp] theorem startTransfer_ldCh (ch : Channel) (s : State) : (startTransfer ch s).ldCh = s.ldCh := rfl
@[simp] theorem startTransfer_ldFrame (ch : Channel) (s : State) : (startTransfer ch s).ldFrame = s.ldFrame := rfl
@[simp] theorem startTransfer_ldIdx (ch : Channel) (s : State) : (startTransfer ch s).ldIdx = s.ldIdx := rfl
@[simp] theorem startTransfer_out (ch : Channel) (s : State) : (startTransfer ch s).out = s.out := rfl
@[simp] theorem startTransfer_ports (ch : Channel) (s : State) : (startTransfer ch s).ports = s.ports := rfl
@[simp] theorem startTransfer_rsp (ch : Channel) (s : State) : (startTransfer ch s).rsp = s.rsp := rfl
@[simp] theorem startTransfer_responses (ch : Channel) (s : State) : (startTransfer ch s).responses = s.responses := rfl
@[simp] theorem startTransfer_samples (ch : Channel) (s : State) : (startTransfer ch s).samples = s.samples := rfl
@[simp] theorem startTransfer_moves (ch : Channel) (s : State) : (startTransfer ch s).moves = s.moves := rfl

@[simp] theorem takeSample_par (s : State) : (takeSample s).par = s.par := rfl
@[simp] theorem takeSample_inited (s : State) : (takeSample s).inited = s.inited := rfl
@[simp] theorem takeSample_cfg (s : State) : (takeSample s).cfg = s.cfg := rfl
@[simp] theorem takeSample_tbl (s : State) : (takeSample s).tbl = s.tbl := rfl
@[simp] theorem takeSample_orEn (s : State) : (takeSample s).orEn = s.orEn := rfl
@[simp] theorem takeSample_orSrc (s : State) : (takeSample s).orSrc = s.orSrc := rfl
@[simp] theorem takeSample_orDst (s : State) : (takeSample s).orDst = s.orDst := rfl
@[simp] theorem takeSample_orLen (s : State) : (takeSample s).orLen = s.orLen := rfl
@[simp] theorem takeSample_rem (s : State) : (takeSample s).rem = s.rem := rfl
@[simp] theorem takeSample_ldActive (s : State) : (takeSample s).ldActive = s.ldActive := rfl
@[simp] theorem takeSample_ldCh (s : State) : (takeSample s).ldCh = s.ldCh := rfl
@[simp] theorem takeSample_ldFrame (s : State) : (takeSample s).ldFrame = s.ldFrame := rfl
@[simp] theorem takeSample_ldIdx (s : State) : (takeSample s).ldIdx = s.ldIdx := rfl
@[simp] theorem takeSample_out (s : State) : (takeSample s).out = s.out := rfl
@[simp] theorem takeSample_ports (s : State) : (takeSample s).ports = s.ports := rfl
@[simp] theorem takeSample_rsp (s : State) : (takeSample s).rsp = s.rsp := rfl
@[simp] theorem takeSample_responses (s : State) : (takeSample s).responses = s.responses := rfl
@[simp] theorem takeSample_samples (s : State) : (takeSample s).samples = s.samples ++ [s.outputs] := rfl
@[simp] theorem takeSample_moves (s : State) : (takeSample s).moves = s.moves := rfl

@[simp] theorem withMoves_par (s : State) (ms : List Move) : (s.withMoves ms).par = s.par := rfl
@[simp] theorem withMoves_inited (s : State) (ms : List Move) : (s.withMoves ms).inited = s.inited := rfl
@[simp] theorem withMoves_cfg (s : State) (ms : List Move) : (s.withMoves ms).cfg = s.cfg := rfl
@[simp] theorem withMoves_tbl (s : State) (ms : List Move) : (s.withMoves ms).tbl = s.tbl := rfl
@[simp] theorem withMoves_orEn (s : State) (ms : List Move) : (s.withMoves ms).orEn = s.orEn := rfl
@[simp] theorem withMoves_orSrc (s : State) (ms : List Move) : (s.withMoves ms).orSrc = s.orSrc := rfl
@[simp] theorem withMoves_orDst (s : State) (ms : List Move) : (s.withMoves ms).orDst = s.orDst := rfl
@[simp] theorem withMoves_orLen (s : State) (ms : List Move) : (s.withMoves ms).orLen = s.orLen := rfl
@[simp] theorem withMoves_rem (s : State) (ms : List Move) : (s.withMoves ms).rem = s.rem := rfl
@[simp] theorem withMoves_ldActive (s : State) (ms : List Move) : (s.withMoves ms).ldActive = s.ldActive := rfl
@[simp] theorem withMoves_ldCh (s : State) (ms : List Move) : (s.withMoves ms).ldCh = s.ldCh := rfl
@[simp] theorem withMoves_ldFrame (s : State) (ms : List Move) : (s.withMoves ms).ldFrame = s.ldFrame := rfl
@[simp] theorem withMoves_ldIdx (s : State) (ms : List Move) : (s.withMoves ms).ldIdx = s.ldIdx := rfl
@[simp] theorem withMoves_out (s : State) (ms : List Move) : (s.withMoves ms).out = s.out := rfl
@[simp] theorem withMoves_ports (s : State) (ms : List Move) : (s.withMoves ms).ports = s.ports := rfl
@[simp] theorem withMoves_rsp (s : State) (ms : List Move) : (s.withMoves ms).rsp = s.rsp := rfl
@[simp] theorem withMoves_responses (s : State) (ms : List Move) : (s.withMoves ms).responses = s.responses := rfl
@[simp] theorem withMoves_samples (s : State) (ms : List Move) : (s.withMoves ms).samples = s.samples := rfl
@[simp] theorem withMoves_moves (s : State) (ms : List Move) : (s.withMoves ms).moves = ms ++ s.moves := rfl

@[simp] theorem presentWord_par (s : State) (nbits w : Nat) : (presentWord s nbits w).par = s.par := rfl
@[simp] theorem presentWord_inited (s : State) (nbits w : Nat) : (presentWord s nbits w).inited = s.inited := rfl
@[simp] theorem presentWord_cfg (s : State) (nbits w : Nat) : (presentWord s nbits w).cfg = s.cfg := rfl
@[simp] theorem presentWord_tbl (s : State) (nbits w : Nat) : (presentWord s nbits w).tbl = s.tbl := rfl
@[simp] theorem presentWord_orEn (s : State) (nbits w : Nat) : (presentWord s nbits w).orEn = s.orEn := rfl
@[simp] theorem presentWord_orSrc (s : State) (nbits w : Nat) : (presentWord s nbits w).orSrc = s.orSrc := rfl
@[simp] theorem presentWord_orDst (s : State) (nbits w : Nat) : (presentWord s nbits w).orDst = s.orDst := rfl
@[simp] theorem presentWord_orLen (s : State) (nbits w : Nat) : (presentWord s nbits w).orLen = s.orLen := rfl
@[simp] theorem presentWord_rem (s : State) (nbits w : Nat) : (presentWord s nbits w).rem = s.rem := rfl
@[simp] theorem presentWord_ldActive (s : State) (nbits w : Nat) : (presentWord s nbits w).ldActive = false := rfl
@[simp] theorem presentWord_ldCh (s : State) (nbits w : Nat) : (presentWord s nbits w).ldCh = s.ldCh := rfl
@[simp] theorem presentWord_ldFrame (s : State) (nbits w : Nat) : (presentWord s nbits w).ldFrame = s.ldFrame := rfl
@[simp] theorem presentWord_ldIdx (s : State) (nbits w : Nat) : (presentWord s nbits w).ldIdx = s.ldIdx := rfl
@[simp] theorem presentWord_out (s : State) (nbits w : Nat) : (presentWord s nbits w).out = s.out := rfl
@[simp] theorem presentWord_ports (s : State) (nbits w : Nat) : (presentWord s nbits w).ports = s.ports := rfl
@[simp] theorem presentWord_rsp (s : State) (nbits w : Nat) : (presentWord s nbits w).rsp = s.rsp := rfl
@[simp] theorem presentWord_responses (s : State) (nbits w : Nat) : (presentWord s nbits w).responses = s.responses := rfl
@[simp] theorem presentWord_samples (s : State) (nbits w : Nat) : (presentWord s nbits w).samples = s.samples := rfl
@[simp] theorem presentWord_moves (s : State) (nbits w : Nat) : (presentWord s nbits w).moves = .command (tableWord nbits w) :: s.moves := rfl

@[simp] theorem assertReset_par (s : State) : (assertReset s).par = s.par := rfl
@[simp] theorem assertReset_inited (s : State) : (assertReset s).inited = false := rfl
@[simp] theorem assertReset_cfg (s : State) : (assertReset s).cfg = CfgRecord.zero := rfl
@[simp] theorem assertReset_tbl (s : State) : (assertReset s).tbl = [] := rfl
@[simp] theorem assertReset_orEn (s : State) : (assertReset s).orEn = false := rfl
@[simp] theorem assertReset_orSrc (s : State) : (assertReset s).orSrc = 0 := rfl
@[simp] theorem assertReset_orDst (s : State) : (assertReset s).orDst = 0 := rfl
@[simp] theorem assertReset_orLen (s : State) : (assertReset s).orLen = 0 := rfl
@[simp] theorem assertReset_rem (s : State) : (assertReset s).rem = 0 := rfl
@[simp] theorem assertReset_ldActive (s : State) : (assertReset s).ldActive = false := rfl
@[simp] theorem assertReset_ldCh (s : State) : (assertReset s).ldCh = 0 := rfl
@[simp] theorem assertReset_ldFrame (s : State) : (assertReset s).ldFrame = 0 := rfl
@[simp] theorem assertReset_ldIdx (s : State) : (assertReset s).ldIdx = 0 := rfl
@[simp] theorem assertReset_out (s : State) : (assertReset s).out = [] := rfl
@[simp] theorem assertReset_ports (s : State) : (assertReset s).ports = s.ports := rfl
@[simp] theorem assertReset_rsp (s : State) : (assertReset s).rsp = none := rfl
@[simp] theorem assertReset_responses (s : State) : (assertReset s).responses = s.responses := rfl
@[simp] theorem assertReset_samples (s : State) : (assertReset s).samples = s.samples := rfl
@[simp] theorem assertReset_moves (s : State) : (assertReset s).moves = s.moves := rfl

@[simp] theorem resetOf_par (p : Params) : (State.resetOf p).par = p := rfl
@[simp] theorem resetOf_inited (p : Params) : (State.resetOf p).inited = false := rfl
@[simp] theorem resetOf_cfg (p : Params) : (State.resetOf p).cfg = CfgRecord.zero := rfl
@[simp] theorem resetOf_tbl (p : Params) : (State.resetOf p).tbl = [] := rfl
@[simp] theorem resetOf_orEn (p : Params) : (State.resetOf p).orEn = false := rfl
@[simp] theorem resetOf_orSrc (p : Params) : (State.resetOf p).orSrc = 0 := rfl
@[simp] theorem resetOf_orDst (p : Params) : (State.resetOf p).orDst = 0 := rfl
@[simp] theorem resetOf_orLen (p : Params) : (State.resetOf p).orLen = 0 := rfl
@[simp] theorem resetOf_rem (p : Params) : (State.resetOf p).rem = 0 := rfl
@[simp] theorem resetOf_ldActive (p : Params) : (State.resetOf p).ldActive = false := rfl
@[simp] theorem resetOf_ldCh (p : Params) : (State.resetOf p).ldCh = 0 := rfl
@[simp] theorem resetOf_ldFrame (p : Params) : (State.resetOf p).ldFrame = 0 := rfl
@[simp] theorem resetOf_ldIdx (p : Params) : (State.resetOf p).ldIdx = 0 := rfl
@[simp] theorem resetOf_out (p : Params) : (State.resetOf p).out = [] := rfl
@[simp] theorem resetOf_ports (p : Params) : (State.resetOf p).ports = CfgPorts.zero := rfl
@[simp] theorem resetOf_rsp (p : Params) : (State.resetOf p).rsp = none := rfl
@[simp] theorem resetOf_responses (p : Params) : (State.resetOf p).responses = [] := rfl
@[simp] theorem resetOf_samples (p : Params) : (State.resetOf p).samples = [] := rfl
@[simp] theorem resetOf_moves (p : Params) : (State.resetOf p).moves = [] := rfl

@[simp] theorem taking_par (s : State) (rest : List Move) : (s.taking rest).par = s.par := rfl
@[simp] theorem taking_inited (s : State) (rest : List Move) : (s.taking rest).inited = s.inited := rfl
@[simp] theorem taking_cfg (s : State) (rest : List Move) : (s.taking rest).cfg = s.cfg := rfl
@[simp] theorem taking_tbl (s : State) (rest : List Move) : (s.taking rest).tbl = s.tbl := rfl
@[simp] theorem taking_orEn (s : State) (rest : List Move) : (s.taking rest).orEn = s.orEn := rfl
@[simp] theorem taking_orSrc (s : State) (rest : List Move) : (s.taking rest).orSrc = s.orSrc := rfl
@[simp] theorem taking_orDst (s : State) (rest : List Move) : (s.taking rest).orDst = s.orDst := rfl
@[simp] theorem taking_orLen (s : State) (rest : List Move) : (s.taking rest).orLen = s.orLen := rfl
@[simp] theorem taking_rem (s : State) (rest : List Move) : (s.taking rest).rem = s.rem := rfl
@[simp] theorem taking_ldActive (s : State) (rest : List Move) : (s.taking rest).ldActive = s.ldActive := rfl
@[simp] theorem taking_ldCh (s : State) (rest : List Move) : (s.taking rest).ldCh = s.ldCh := rfl
@[simp] theorem taking_ldFrame (s : State) (rest : List Move) : (s.taking rest).ldFrame = s.ldFrame := rfl
@[simp] theorem taking_ldIdx (s : State) (rest : List Move) : (s.taking rest).ldIdx = s.ldIdx := rfl
@[simp] theorem taking_out (s : State) (rest : List Move) : (s.taking rest).out = s.out := rfl
@[simp] theorem taking_ports (s : State) (rest : List Move) : (s.taking rest).ports = s.ports := rfl
@[simp] theorem taking_rsp (s : State) (rest : List Move) : (s.taking rest).rsp = s.rsp := rfl
@[simp] theorem taking_responses (s : State) (rest : List Move) : (s.taking rest).responses = s.responses := rfl
@[simp] theorem taking_samples (s : State) (rest : List Move) : (s.taking rest).samples = s.samples := rfl
@[simp] theorem taking_moves (s : State) (rest : List Move) : (s.taking rest).moves = rest := rfl

@[simp] theorem driveConfigPorts_par (q : CfgPorts) (s : State) : (driveConfigPorts q s).par = s.par := rfl
@[simp] theorem driveConfigPorts_inited (q : CfgPorts) (s : State) : (driveConfigPorts q s).inited = s.inited := rfl
@[simp] theorem driveConfigPorts_cfg (q : CfgPorts) (s : State) : (driveConfigPorts q s).cfg = s.cfg := rfl
@[simp] theorem driveConfigPorts_tbl (q : CfgPorts) (s : State) : (driveConfigPorts q s).tbl = s.tbl := rfl
@[simp] theorem driveConfigPorts_orEn (q : CfgPorts) (s : State) : (driveConfigPorts q s).orEn = s.orEn := rfl
@[simp] theorem driveConfigPorts_orSrc (q : CfgPorts) (s : State) : (driveConfigPorts q s).orSrc = s.orSrc := rfl
@[simp] theorem driveConfigPorts_orDst (q : CfgPorts) (s : State) : (driveConfigPorts q s).orDst = s.orDst := rfl
@[simp] theorem driveConfigPorts_orLen (q : CfgPorts) (s : State) : (driveConfigPorts q s).orLen = s.orLen := rfl
@[simp] theorem driveConfigPorts_rem (q : CfgPorts) (s : State) : (driveConfigPorts q s).rem = s.rem := rfl
@[simp] theorem driveConfigPorts_ldActive (q : CfgPorts) (s : State) : (driveConfigPorts q s).ldActive = s.ldActive := rfl
@[simp] theorem driveConfigPorts_ldCh (q : CfgPorts) (s : State) : (driveConfigPorts q s).ldCh = s.ldCh := rfl
@[simp] theorem driveConfigPorts_ldFrame (q : CfgPorts) (s : State) : (driveConfigPorts q s).ldFrame = s.ldFrame := rfl
@[simp] theorem driveConfigPorts_ldIdx (q : CfgPorts) (s : State) : (driveConfigPorts q s).ldIdx = s.ldIdx := rfl
@[simp] theorem driveConfigPorts_out (q : CfgPorts) (s : State) : (driveConfigPorts q s).out = s.out := rfl
@[simp] theorem driveConfigPorts_ports (q : CfgPorts) (s : State) : (driveConfigPorts q s).ports = q := rfl
@[simp] theorem driveConfigPorts_rsp (q : CfgPorts) (s : State) : (driveConfigPorts q s).rsp = s.rsp := rfl
@[simp] theorem driveConfigPorts_responses (q : CfgPorts) (s : State) : (driveConfigPorts q s).responses = s.responses := rfl
@[simp] theorem driveConfigPorts_samples (q : CfgPorts) (s : State) : (driveConfigPorts q s).samples = s.samples := rfl
@[simp] theorem driveConfigPorts_moves (q : CfgPorts) (s : State) : (driveConfigPorts q s).moves = s.moves := rfl

end Sys2Proof.Machine
end

