-- ==== Sys2Proof/Laws/Ops.lean ====
section
/-! SUPPORT. What each shared operation can do, said once: the entry accesses, the four meanings, the micro-steps, DRAIN, the
command port and the step. -/

namespace Sys2Proof.Machine

@[simp] theorem responseWord_ok_zero : responseWord .ok 0#16 = 0x00000000#32 := by decide
@[simp] theorem responseWord_config : responseWord .configRejected 0#16 = 0x00010000#32 := by decide
@[simp] theorem responseWord_channel : responseWord .channelRejected 0#16 = 0x00020000#32 := by decide
@[simp] theorem responseWord_busy : responseWord .busyRejected 0#16 = 0x00030000#32 := by decide
@[simp] theorem responseWord_illegal : responseWord .illegalCmd 0#16 = 0x00040000#32 := by decide

/-- An entry reads as the value written to it (20_memory.md R45, R47). -/
theorem readEntry_writeEntry {s : State} (h : s.tbl.wf) (t i : Nat) (v : Entry) :
    readEntry (writeEntry s t i v) t i = v := by simp [readEntry, writeEntry, Memory.get_put h]

/-- A write changes no other entry (20_memory.md R45, R47). -/
theorem readEntry_writeEntry_other {s : State} (h : s.tbl.wf) {t i t' i' : Nat} (hne : (t', i') ≠ (t, i)) (v : Entry) :
    readEntry (writeEntry s t i v) t' i' = readEntry s t' i' := by
  have : (⟨t', i'⟩ : Addr) ≠ ⟨t, i⟩ := fun e => hne (by injection e with e1 e2; rw [e1, e2])
  simp [readEntry, writeEntry, Memory.get_put_other h this]

/-- INIT answers a next state always: the latched one, or a rejection. -/
theorem execInit_cases (s : State) :
    (execInit s = .next (respond .configRejected 0 s) ∧ (s.inited = true ∨ cfgValid s.par s.ports = false)) ∨
      (execInit s = .next (respond .ok 0 (latchConfig s)) ∧ s.inited = false ∧ cfgValid s.par s.ports = true) := by
  cases hi : s.inited <;> cases hv : cfgValid s.par s.ports <;> simp [execInit, hi, hv, reject]

/-- LOAD answers a next state always: step 0 of the load, or a rejection. -/
theorem execLoad_cases (ch : Channel) (thr : Throttle) (s : State) :
    (execLoad ch thr s = .next (respond .configRejected 0 s) ∧ s.inited = false) ∨
      (execLoad ch thr s = .next (respond .channelRejected 0 s) ∧ s.inited = true ∧ enabled s.par s.cfg ch = false) ∨
      (execLoad ch thr s = .next (beginLoad ch (encodeFrame thr) s) ∧ s.inited = true ∧
        enabled s.par s.cfg ch = true) := by
  cases hi : s.inited <;> cases he : enabled s.par s.cfg ch <;> simp [execLoad, hi, he, reject]

/-- SEND answers a next state always: the transfer started, or a rejection. -/
theorem execSend_cases (ch : Channel) (s : State) :
    (execSend ch s = .next (respond .configRejected 0 s) ∧ s.inited = false) ∨
      (execSend ch s = .next (respond .channelRejected 0 s) ∧ s.inited = true ∧ enabled s.par s.cfg ch = false) ∨
      (execSend ch s = .next (respond .busyRejected 0 s) ∧ s.inited = true ∧ enabled s.par s.cfg ch = true ∧
        s.rem ≠ 0) ∨
      (execSend ch s = .next (respond .ok 0 (startTransfer ch s)) ∧ s.inited = true ∧
        enabled s.par s.cfg ch = true ∧ s.rem = 0) := by
  cases hi : s.inited
  · simp [execSend, hi, reject]
  cases he : enabled s.par s.cfg ch
  · simp [execSend, hi, he, reject]
  by_cases hr : s.rem = 0
  · exact .inr (.inr (.inr ⟨by simp [execSend, hi, he, hr, State.busy], rfl, rfl, hr⟩))
  · have hb : s.busy = true := by simpa [State.busy] using hr
    exact .inr (.inr (.inl ⟨by simp [execSend, hi, he, hb, reject], rfl, rfl, hr⟩))

/-- A micro-step that writes an entry, on the whole state. -/
theorem loadWriteStep_eq (s : State) :
    loadWriteStep s = { s with
      tbl := loadWrite s.par s.cfg s.ldCh s.ldFrame s.tbl s.ldIdx.toNat, ldIdx := s.ldIdx + 1 } := rfl

/-- A micro-step answers a next state in one of three ways: none is in progress, an entry is written, the load finishes. -/
theorem loadStep_cases {s t : State} (h : loadStep s = .next t) :
    (s.ldActive = false ∧ t = s) ∨
      (s.ldActive = true ∧ s.ldIdx.toNat < loadWrites s.par ∧
        t = { s with tbl := loadWrite s.par s.cfg s.ldCh s.ldFrame s.tbl s.ldIdx.toNat, ldIdx := s.ldIdx + 1 }) ∨
      (s.ldActive = true ∧ loadWrites s.par ≤ s.ldIdx.toNat ∧ t = finishLoad s) := by
  unfold loadStep at h
  split at h
  · next ha => simp at ha h; exact .inl ⟨ha, h.symm⟩
  · next ha =>
    simp at ha
    split at h
    · next hk => cases h; exact .inr (.inl ⟨ha, hk, rfl⟩)
    · next hk => cases h; exact .inr (.inr ⟨ha, Nat.le_of_not_lt hk, rfl⟩)

theorem loadStep_write {s : State} (ha : s.ldActive = true) (hk : s.ldIdx.toNat < loadWrites s.par) :
    loadStep s = .next { s with
      tbl := loadWrite s.par s.cfg s.ldCh s.ldFrame s.tbl s.ldIdx.toNat, ldIdx := s.ldIdx + 1 } := by
  simp [loadStep, ha, hk, loadWriteStep_eq]

theorem loadStep_finish {s : State} (ha : s.ldActive = true) (hk : loadWrites s.par ≤ s.ldIdx.toNat) :
    loadStep s = .next (finishLoad s) := by
  simp [loadStep, ha, Nat.not_lt.2 hk]

theorem loadStep_idle {s : State} (ha : s.ldActive = false) : loadStep s = .next s := by
  simp [loadStep, ha]

/-- The output resource's move answers a next state in one of two ways: nothing, or one entry delivered. -/
theorem drainStep_cases {s t : State} (h : drainStep s = .next t) :
    (s.drainEnabled = false ∧ t = s) ∨
      (s.orEn = true ∧ s.rem ≠ 0 ∧
        t = { emit s.orDst (entryAt s.tbl s.orSrc.toNat (s.orLen.toNat - s.rem.toNat)) s with rem := s.rem - 1 }) := by
  unfold drainStep at h
  split at h
  · next hd => simp [State.drainEnabled] at hd; cases h; exact .inr ⟨hd.1, hd.2, rfl⟩
  · next hd => simp at hd; cases h; exact .inl ⟨hd, rfl⟩

theorem drainStep_disabled {s : State} (h : s.drainEnabled = false) : drainStep s = .next s := by
  simp [drainStep, h]

theorem drainStep_delivers {s : State} (he : s.orEn = true) (hr : s.rem ≠ 0) :
    drainStep s = .next { emit s.orDst (entryAt s.tbl s.orSrc.toNat (s.orLen.toNat - s.rem.toNat)) s with
      rem := s.rem - 1 } := by
  have hd : s.drainEnabled = true := by simpa [State.drainEnabled, he] using hr
  rw [drainStep, if_pos hd]; rfl

theorem acceptCommand_legal {w : Word} {i : Instr} (h : decode w = .ok i) (s : State) :
    acceptCommand w s = exec i s := by simp [acceptCommand, h]

theorem acceptCommand_illegal {w : Word} {e : DecodeError} (h : decode w = .error e) (s : State) :
    acceptCommand w s = .next (respond .illegalCmd 0 s) := by simp [acceptCommand, h, reject]

/-- What the acceptance of a command word can leave. -/
theorem acceptCommand_cases (w : Word) (s : State) :
    (∃ st, st ≠ .ok ∧ acceptCommand w s = .next (respond st 0 s)) ∨
      (∃ thr, decode w = .ok (.encode thr) ∧ acceptCommand w s = .next (respond .ok (encodeFrame thr) s)) ∨
      (decode w = .ok .init ∧ s.inited = false ∧ cfgValid s.par s.ports = true ∧
        acceptCommand w s = .next (respond .ok 0 (latchConfig s))) ∨
      (∃ ch thr, decode w = .ok (.load ch thr) ∧ s.inited = true ∧ enabled s.par s.cfg ch = true ∧
        acceptCommand w s = .next (beginLoad ch (encodeFrame thr) s)) ∨
      (∃ ch, decode w = .ok (.send ch) ∧ s.inited = true ∧ enabled s.par s.cfg ch = true ∧ s.rem = 0 ∧
        acceptCommand w s = .next (respond .ok 0 (startTransfer ch s))) := by
  cases h : decode w with
  | error e => exact .inl ⟨.illegalCmd, by simp, acceptCommand_illegal h s⟩
  | ok i =>
    rw [acceptCommand_legal h]
    cases i with
    | init =>
      rcases execInit_cases s with ⟨e, -⟩ | ⟨e, hi, hv⟩
      · exact .inl ⟨.configRejected, by simp, e⟩
      · exact .inr (.inr (.inl ⟨rfl, hi, hv, e⟩))
    | encode thr => exact .inr (.inl ⟨thr, rfl, rfl⟩)
    | load ch thr =>
      rcases execLoad_cases ch thr s with ⟨e, -⟩ | ⟨e, -, -⟩ | ⟨e, hi, he⟩
      · exact .inl ⟨.configRejected, by simp, e⟩
      · exact .inl ⟨.channelRejected, by simp, e⟩
      · exact .inr (.inr (.inr (.inl ⟨ch, thr, rfl, hi, he, e⟩)))
    | send ch =>
      rcases execSend_cases ch s with ⟨e, -⟩ | ⟨e, -, -⟩ | ⟨e, -, -, -⟩ | ⟨e, hi, he, hr⟩
      · exact .inl ⟨.configRejected, by simp, e⟩
      · exact .inl ⟨.channelRejected, by simp, e⟩
      · exact .inl ⟨.busyRejected, by simp, e⟩
      · exact .inr (.inr (.inr (.inr ⟨ch, rfl, hi, he, hr, e⟩)))

/-- Everything one step can do: which operation it makes on which state. -/
theorem step_cases (s : State) :
    (s.moves = [] ∧ s.ldActive = true ∧ step s = loadStep s.quiet) ∨
      (s.moves = [] ∧ s.ldActive = false ∧ step s = drainStep s.quiet) ∨
      (∃ w rest, s.moves = .command w :: rest ∧ s.ldActive = false ∧
        step s = acceptCommand w (s.quiet.taking rest)) ∨
      (∃ w rest, s.moves = .command w :: rest ∧ s.ldActive = true ∧ step s = loadStep s.quiet) ∨
      (∃ rest, s.moves = .advance :: rest ∧ step s = loadStep (s.quiet.taking rest)) ∨
      (∃ rest, s.moves = .drain :: rest ∧ step s = drainStep (s.quiet.taking rest)) ∨
      (∃ q rest, s.moves = .drivePorts q :: rest ∧ step s = .next (driveConfigPorts q (s.quiet.taking rest))) ∨
      (∃ rest, s.moves = .sample :: rest ∧ step s = .next (takeSample (s.quiet.taking rest))) ∨
      (∃ rest, s.moves = .assertReset :: rest ∧ step s = .next (assertReset (s.quiet.taking rest))) := by
  unfold step
  split
  · next hm =>
    cases ha : s.ldActive
    · exact .inr (.inl ⟨hm, rfl, by simp [settle, ha]⟩)
    · exact .inl ⟨hm, rfl, by simp [settle, ha]⟩
  · next m rest hm =>
    right; right
    cases m with
    | command w =>
      cases ha : s.ldActive
      · exact .inl ⟨w, rest, hm, rfl, by simp [performMove, State.cmdReady, ha]⟩
      · exact .inr (.inl ⟨w, rest, hm, rfl, by simp [performMove, State.cmdReady, ha]⟩)
    | advance => exact .inr (.inr (.inl ⟨rest, hm, rfl⟩))
    | drain => exact .inr (.inr (.inr (.inl ⟨rest, hm, rfl⟩)))
    | drivePorts q => exact .inr (.inr (.inr (.inr (.inl ⟨q, rest, hm, rfl⟩))))
    | sample => exact .inr (.inr (.inr (.inr (.inr (.inl ⟨rest, hm, rfl⟩)))))
    | assertReset => exact .inr (.inr (.inr (.inr (.inr (.inr ⟨rest, hm, rfl⟩)))))

end Sys2Proof.Machine
end

