-- ==== Sys2Proof/Laws/PerInstr.lean ====
section
/-! SUPPORT. Statements for all commands, one lemma per constructor of `Instr`. -/

namespace Sys2Proof.Laws.FitsTable

/-- The `match` of a command's row of spec/opcode_table.json. -/
def rowMatch : Instr → Word
  | .init => 0x10000000#32
  | .encode _ => 0x20000000#32
  | .load _ _ => 0x30000000#32
  | .send _ => 0x40000000#32

/-- The `mask` of a command's row of spec/opcode_table.json. -/
def rowMask : Instr → Word
  | .init => 0xFFFFFFFF#32
  | .encode _ => 0xFFFF0000#32
  | .load _ _ => 0xF0FF0000#32
  | .send _ => 0xF0FFFFFF#32

/-- The word of a command has the fixed bits of its row (30_encoding.md R63). -/
def Statement (i : Instr) : Prop := encode i &&& rowMask i = rowMatch i

theorem init : Statement .init := by unfold Statement; decide

theorem encode (thr : Throttle) : Statement (.encode thr) := by
  unfold Statement
  refine BitVec.eq_of_getLsbD_eq fun i hi => ?_
  rw [BitVec.getLsbD_and, Sys2Proof.encode, getLsbD_commandWord]
  interval_cases i <;> simp [rowMask, rowMatch]

theorem load (ch : Channel) (thr : Throttle) : Statement (.load ch thr) := by
  unfold Statement
  refine BitVec.eq_of_getLsbD_eq fun i hi => ?_
  rw [BitVec.getLsbD_and, Sys2Proof.encode, getLsbD_commandWord]
  interval_cases i <;> simp [rowMask, rowMatch]

theorem send (ch : Channel) : Statement (.send ch) := by
  unfold Statement
  refine BitVec.eq_of_getLsbD_eq fun i hi => ?_
  rw [BitVec.getLsbD_and, Sys2Proof.encode, getLsbD_commandWord]
  interval_cases i <;> simp [rowMask, rowMatch]

end Sys2Proof.Laws.FitsTable
end

