-- ==== Sys2Proof/Laws/Run.lean ====
section
/-! SUPPORT. Runs of several steps, taken apart and put together. -/

namespace Sys2Proof.Machine

@[simp] theorem runSteps_zero (s : State) : runSteps 0 s = .next s := rfl

/-- A first step to `t`, then the rest of the run. -/
theorem runSteps_succ {s t : State} (h : step s = .next t) (n : Nat) : runSteps (n + 1) s = runSteps n t := by
  rw [runSteps, h]

theorem runSteps_one {s t : State} (h : step s = .next t) : runSteps 1 s = .next t := by
  rw [runSteps_succ h, runSteps_zero]

/-- A run of `m` steps to `t`, then a run of `n`. -/
theorem runSteps_add {m : Nat} {s t : State} (h : runSteps m s = .next t) (n : Nat) :
    runSteps (m + n) s = runSteps n t := by
  induction m generalizing s with
  | zero => cases h; rw [Nat.zero_add]
  | succ m ih =>
    rw [show m + 1 + n = m + n + 1 by omega]
    cases hs : step s with
    | next u => rw [runSteps_succ hs]; exact ih (by rwa [runSteps_succ hs] at h)
    | fault e => simp [runSteps, hs] at h
    | refused e => simp [runSteps, hs] at h

/-- The host's run of the machine is `runSteps`. -/
theorem core_run (n : Nat) (s : State) : Host.Core.run Sys2Proof.core n s = runSteps n s := by
  induction n generalizing s with
  | zero => rfl
  | succ n ih =>
    have hc : Sys2Proof.core.step s = step s := rfl
    cases hs : step s with
    | next t => simp only [Host.Core.run, runSteps, hc, hs]; exact ih t
    | fault e => simp only [Host.Core.run, runSteps, hc, hs]; rfl
    | refused r => simp only [Host.Core.run, runSteps, hc, hs]; rfl

end Sys2Proof.Machine
end

