-- ==== Sys2Proof/Laws/Waveform.lean ====
section
/-! SUPPORT. What a sequence of entry writes of a LOAD leaves in the table memory, said once. -/

namespace Sys2Proof.Machine

theorem loadPrefix_wf (p : Params) (g : CfgRecord) (c : Channel) (f : Frame) {m : Memory} (hm : m.wf) (n : Nat) :
    (loadPrefix p g c f m n).wf := by
  induction n with
  | zero => exact hm
  | succ n ih => exact Memory.put_wf ih _ _

/-- The first n writes leave the loaded entry at the channel's indices below n, and every other entry as it was. -/
theorem get_loadPrefix (p : Params) (g : CfgRecord) (c : Channel) (f : Frame) {m : Memory} (hm : m.wf) (n : Nat)
    (a : Addr) :
    (loadPrefix p g c f m n).get a =
      if a.table = tableOf p c ∧ a.index < n then loadedEntry p g c f a.index (m.get a) else m.get a := by
  induction n with
  | zero => simp [loadPrefix]
  | succ n ih =>
    have ih' : (loadPrefix p g c f m n).get ⟨tableOf p c, n⟩ = m.get ⟨tableOf p c, n⟩ := by
      clear ih
      suffices h : ∀ k ≤ n, (loadPrefix p g c f m k).get ⟨tableOf p c, n⟩ = m.get ⟨tableOf p c, n⟩ from h n le_rfl
      intro k
      induction k with
      | zero => intro _; rfl
      | succ k ihk =>
        intro hk
        rw [loadPrefix, loadWrite, Memory.get_put_other (loadPrefix_wf p g c f hm k) (by simp; omega)]
        exact ihk (by omega)
    rw [loadPrefix, loadWrite, Memory.get_put (loadPrefix_wf p g c f hm n), ih, ih']
    obtain ⟨t, i⟩ := a
    by_cases h : t = tableOf p c ∧ i = n
    · obtain ⟨rfl, rfl⟩ := h
      simp
    · have h1 : (⟨t, i⟩ : Addr) ≠ ⟨tableOf p c, n⟩ := by
        intro h2; injection h2 with h3 h4; exact h ⟨h3, h4⟩
      have h2 : (t = tableOf p c ∧ i < n) ↔ (t = tableOf p c ∧ i < n + 1) := by
        constructor <;> rintro ⟨h3, h4⟩ <;> refine ⟨h3, ?_⟩
        · omega
        · have : i ≠ n := fun h5 => h ⟨h3, h5⟩
          omega
      simp only [h1, if_false, h2]

theorem loadTable_wf (p : Params) (g : CfgRecord) (c : Channel) (f : Frame) {m : Memory} (hm : m.wf) :
    (loadTable p g c f m).wf := loadPrefix_wf p g c f hm _

theorem get_loadTable (p : Params) (g : CfgRecord) (c : Channel) (f : Frame) {m : Memory} (hm : m.wf) (a : Addr) :
    (loadTable p g c f m).get a =
      if a.table = tableOf p c ∧ a.index < loadWrites p then loadedEntry p g c f a.index (m.get a) else m.get a :=
  get_loadPrefix p g c f hm _ a

end Sys2Proof.Machine
end

