-- ==== Sys2Proof/Tests/Slice0.lean ====
section
/-! SUPPORT. The model's own tests. Expected values are the vectors of spec/95_test_vectors.md (their ids are in the docstrings) and
the encodings of 30_encoding.md R63. A `witness_<Name>` theorem shows inputs that meet the hypotheses of the obligation
`<Name>`. -/

namespace Sys2Proof.Tests

open Sys2Proof Sys2Proof.Machine

/-! ### Helpers -/

/-- Duty strategy, two channels, GAP = 1, CAL = (20, 40). -/
def dutyPar : Params := { Config.referenceDuty with nch := 2 }

/-- Level-multiplex strategy, four channels, GAP = 1, edges (3, 6, 0, 6). -/
def levelPar : Params := { Config.referenceDuty with strategy := .levelMux, nch := 4 }

/-- Speed class 2, channels 0 and 1 enabled, mask 2^c for channel c, every destination 0x40000034. -/
def testPorts : CfgPorts where
  speed := 2
  en := 3
  dst := Vector.replicate 16 0x40000034#32
  mask := Vector.ofFn fun c => 1#16 <<< c.val

/-- Reset, with `testPorts` on the configuration ports. -/
def fresh (p : Params) : State := { State.resetOf p with ports := testPorts }

/-- Initialised and Idle, all tables zero. -/
def ready (p : Params) : State := latchConfig (fresh p)

/-- Initialised and Idle in the duty strategy, with `v` in the first entry of channel 0. -/
def holding (v : Entry) : State := { ready dutyPar with tbl := [(⟨0, 0⟩, v)] }

/-- A LOAD of channel 0 with frame 0x82C6 in progress, the next write at index k. -/
def loading (k : BitVec 8) (s : State) : State :=
  { s with ldActive := true, ldCh := 0, ldFrame := 0x82C6#16, ldIdx := k }

/-- A transfer of table 0 in flight with r entries left. -/
def sending (r : Count) (s : State) : State :=
  { s with orEn := true, orSrc := 0, orDst := 0x40000034#32, orLen := BitVec.ofNat 16 (tableLen s.par), rem := r }

/-- The state with the moves `ms`. -/
def doing (ms : List Move) (s : State) : State := { s with moves := ms }

/-- The next state, if there is one. -/
def after : Host.Outcome State Fault Refusal → Option State
  | .next s => some s
  | _ => none

/-- The eight words of protocol bit 1 after a level-multiplex LOAD over the words `old`. -/
def loadBit1 (f : Frame) (m : Half) (old : List Entry) : List Entry :=
  (List.range 8).map fun j => levelWord levelPar m f (8 + j) (old.getD j 0)

/-! ### WellFormed: each check refuses an ill-formed term -/

theorem test_wf_reference : Config.referenceDuty.wf ∧ dutyPar.wf ∧ levelPar.wf := by decide
theorem test_wf_no_channel : ¬{ dutyPar with nch := 0 }.nchWf := by decide
theorem test_wf_seventeen_channels : ¬{ dutyPar with nch := 17 }.nchWf := by decide
theorem test_wf_no_gap : ¬{ dutyPar with gap := 0 }.gapWf := by decide
theorem test_wf_gap_three : ¬{ dutyPar with gap := 3 }.gapWf := by decide
theorem test_wf_short_zero : ¬{ dutyPar with cal0 := ⟨0, 40⟩ }.calWf := by decide
theorem test_wf_short_not_below_long : ¬{ dutyPar with cal1 := ⟨40, 40⟩ }.calWf := by decide
theorem test_wf_short_above_long : ¬{ dutyPar with cal2 := ⟨41, 40⟩ }.calWf := by decide
theorem test_wf_rise0_not_below_fall0 : ¬{ dutyPar with rise0 := 6 }.edgesWf := by decide
theorem test_wf_fall0_above_seven : ¬{ dutyPar with fall0 := 8 }.edgesWf := by decide
theorem test_wf_rise1_not_below_fall1 : ¬{ dutyPar with rise1 := 6 }.edgesWf := by decide
theorem test_wf_fall1_above_seven : ¬{ dutyPar with fall1 := 8 }.edgesWf := by decide
theorem test_wf_pulse_not_wider : ¬{ dutyPar with rise1 := 3 }.pulseWf := by decide

/-! ### Decode: words written out from 30_encoding.md R63 (vectors W1 to W16) -/

theorem test_decode_init : decode 0b00010000000000000000000000000000#32 = .ok .init := by decide
theorem test_decode_encode :
    decode 0b00100000000000000000010000010110#32 = .ok (.encode 1046) ∧
      decode 0x2000FFFF#32 = .ok (.encode 65535) := by decide
theorem test_decode_load :
    decode 0b00110000000000000000010000010110#32 = .ok (.load 0 1046) ∧
      decode 0b00111111000000000000011111111111#32 = .ok (.load 15 2047) := by decide
theorem test_decode_send :
    decode 0b01000000000000000000000000000000#32 = .ok (.send 0) ∧
      decode 0b01000011000000000000000000000000#32 = .ok (.send 3) := by decide
theorem test_decode_no_operation :
    decode 0x00000000#32 = .error .noSuchOperation ∧ decode 0x50000000#32 = .error .noSuchOperation ∧
      decode 0xF0000000#32 = .error .noSuchOperation := by decide
theorem test_decode_z_not_zero :
    decode 0x20010000#32 = .error .zFieldNotZero ∧ decode 0x30FF0000#32 = .error .zFieldNotZero := by decide
theorem test_decode_channel_not_zero :
    decode 0x21000005#32 = .error .channelNotZero ∧ decode 0x11000000#32 = .error .channelNotZero := by decide
theorem test_decode_throttle_not_zero :
    decode 0x40000001#32 = .error .throttleNotZero ∧ decode 0x10000001#32 = .error .throttleNotZero := by decide

/-- R63, R72: the words of four commands. -/
theorem test_encode_words :
    encode .init = 0x10000000#32 ∧ encode (.encode 1046) = 0x20000416#32 ∧ encode (.load 1 48) = 0x31000030#32 ∧
      encode (.send 3) = 0x43000000#32 := by decide

theorem test_table_word :
    decodeTableWord 32 0x3F0007FF = some (.load 15 2047) ∧ decodeTableWord 32 0 = none := by decide

/-! ### ENCODE (V vectors and A8) -/

theorem test_frames :
    encodeFrame 1 = 0x0022#16 ∧ encodeFrame 8 = 0x0101#16 ∧ encodeFrame 17 = 0x0220#16 ∧ encodeFrame 47 = 0x05EB#16 ∧
      encodeFrame 1000 = 0x7D0A#16 ∧ encodeFrame 1024 = 0x8008#16 ∧ encodeFrame 1365 = 0xAAAA#16 ∧
      encodeFrame 2047 = 0xFFEE#16 ∧ encodeFrame 2048 = 0x0000#16 ∧ encodeFrame 43981 = 0x79A4#16 := by decide

/-- A8: while 5 entries are left, ENCODE 7 answers 0x000000EE. -/
theorem test_encode_answers :
    ((after (step ((sending 5 (ready dutyPar)).withFetchWord 32 0x20000007))).map fun t => (t.rsp, t.rem)) =
      some (some 0x000000EE#32, 5) := by decide

/-! ### INIT (I1 to I4, L7) -/

/-- I1: from reset, with the word presented, INIT answers 0, latches and sets INITED. -/
theorem test_init_latches :
    ((after (step ((fresh levelPar).withFetchWord 32 0x10000000))).map fun t =>
      (t.rsp, t.inited, t.cfg.speed, t.cfg.en, t.cfg.maskOf 1)) = some (some 0, true, 2, 3, 2) := by decide

/-- I2 to I4 and L7: no speed class, no channel, a second INIT; overlapping masks, a zero mask; unexamined masks of disabled
channels; masks of several bits. -/
theorem test_init_validity :
    cfgValid dutyPar { testPorts with speed := 3 } = false ∧ cfgValid dutyPar { testPorts with en := 0 } = false ∧
      ((after (execInit (ready dutyPar))).map State.rsp) = some (some 0x00010000#32) ∧
      cfgValid levelPar { testPorts with mask := Vector.replicate 16 1 } = false ∧
      cfgValid levelPar { testPorts with mask := testPorts.mask.set 1 0 } = false ∧
      cfgValid levelPar { testPorts with mask := (testPorts.mask.set 2 1).set 3 0 } = true ∧
      cfgValid levelPar { testPorts with mask := (testPorts.mask.set 0 3).set 1 12 } = true := by decide

/-! ### LOAD (T3, T8, T9, L1 to L5) -/

/-- T9, T8 and T10: before INIT, of a channel that does not exist. -/
theorem test_load_rejections :
    ((after (execLoad 0 5 (fresh dutyPar))).map State.rsp) = some (some 0x00010000#32) ∧
      ((after (execLoad 2 5 (ready dutyPar))).map State.rsp) = some (some 0x00020000#32) ∧
      ((after (execLoad 2 100 (ready levelPar))).map State.rsp) = some (some 0x00020000#32) := by decide

/-- A7: a LOAD is accepted during a transfer and leaves REM; step 0 answers nothing. -/
theorem test_load_accepted :
    ((after (execLoad 0 1046 (sending 5 (ready dutyPar)))).map fun t =>
      (t.ldActive, t.ldFrame, t.ldIdx, t.rem, t.rsp)) = some (true, 0x82C6#16, 0, 5, none) := by decide

/-- T3: the duty table of 1046. -/
theorem test_duty_table :
    ((List.range 17).map fun i =>
        entryAt (loadTable dutyPar (ready dutyPar).cfg 0 (encodeFrame 1046) []) 0 i) =
      [40, 20, 20, 20, 20, 20, 40, 20, 40, 40, 20, 20, 20, 40, 40, 20, 0] := by decide

/-- L1 to L3, bit 1: channel 0 loads 1046, channel 1 loads 48, channel 0 loads 2047 (the stale mark at sub-slot 3 goes). -/
theorem test_level_words :
    loadBit1 0x82C6#16 1 [] = [0, 0, 0, 1, 0, 0, 0x10000, 0] ∧
      loadBit1 0x0606#16 2 [0, 0, 0, 1, 0, 0, 0x10000, 0] = [0, 0, 0, 3, 0, 0, 0x30000, 0] ∧
      loadBit1 0xFFEE#16 1 [0, 0, 0, 3, 0, 0, 0x30000, 0] = [1, 0, 0, 2, 0, 0, 0x30000, 0] := by decide

/-- L5: with the edges (0, 3, 0, 6), a 1 bit and a 0 bit. -/
theorem test_level_other_edges :
    ((List.range 16).map fun i => levelWord { levelPar with rise0 := 0, fall0 := 3 } 1 0x82C6#16 i 0) =
      [1, 0, 0, 0, 0, 0, 0x10000, 0, 1, 0, 0, 0x10000, 0, 0, 0, 0] := by decide

/-- L4: the line levels over one protocol bit with channel 0 at 1 and channel 1 at 0. -/
theorem test_line_levels :
    ((List.range 8).map fun n => pinsAfter 0 (([1, 0, 0, 2, 0, 0, 0x30000, 0] : List Entry).take (n + 1))) =
      [1, 1, 1, 3, 3, 3, 0, 0] := by decide

theorem test_duty_wave : dutyWave 3 [2, 0] = [true, true, false, false, false, false] := by decide

/-! ### SEND and DRAIN (A1 to A6, A9, A10) -/

/-- A1, A2: SEND starts the transfer with the full length; a second one is busy. -/
theorem test_send_starts :
    ((after (execSend 0 (ready dutyPar))).map fun t => (t.rsp, t.orEn, t.orSrc, t.orDst, t.orLen, t.rem)) =
        some (some 0, true, 0, 0x40000034#32, 17, 17) ∧
      ((after (execSend 0 (sending 17 (ready dutyPar)))).map State.rsp) = some (some 0x00030000#32) := by decide

/-- A9, A10: CHANNEL before BUSY; CONFIG before INIT. -/
theorem test_send_rejections :
    ((after (execSend 2 (sending 3 (ready dutyPar)))).map State.rsp) = some (some 0x00020000#32) ∧
      ((after (execSend 0 (fresh dutyPar))).map State.rsp) = some (some 0x00010000#32) := by decide

/-- A3, A4, A5: the first entry, the last entry, and nothing after it. -/
theorem test_drain :
    ((after (step (doing [.drain] (sending 17 (holding 40))))).map fun t => (t.rem, t.out)) =
        some (16, [(0x40000034#32, 40)]) ∧
      ((after (step (doing [.drain] (sending 1 (holding 40))))).map fun t => (t.rem, t.out, t.orEn)) =
        some (0, [(0x40000034#32, 0)], true) ∧
      ((after (step (doing [.drain] (sending 0 (holding 40))))).map fun t => (t.rem, t.out)) = some (0, []) := by decide

/-! ### Memory, illegal words, reset, samples -/

theorem test_memory_canonical :
    Memory.put [(⟨0, 3⟩, 5)] ⟨0, 1⟩ 7 = [(⟨0, 1⟩, 7), (⟨0, 3⟩, 5)] ∧
      Memory.put [(⟨0, 1⟩, 7), (⟨0, 3⟩, 5)] ⟨0, 3⟩ 0 = [(⟨0, 1⟩, 7)] ∧
      Memory.get [(⟨0, 1⟩, 7), (⟨0, 3⟩, 5)] ⟨0, 2⟩ = 0 := by decide

theorem test_reset_answers_illegal :
    ((after (step (State.reset.withFetchWord 32 0))).map fun t => (t.rsp, t.tbl)) =
      some (some 0x00040000#32, []) := by decide

theorem test_assert_reset :
    ((after (step (doing [.assertReset] (loading 3 (sending 9 (ready dutyPar)))))).map fun t =>
      (t.inited, t.rem, t.ldActive, t.orLen, t.cfg.en)) = some (false, 0, false, 0, 0) := by decide

/-! ### The invariant of the helpers' states -/

theorem inv_ready_duty : BlockInv (ready dutyPar) :=
  ⟨by decide, by decide, by decide, by decide, by decide, by decide, by decide, by decide, by decide, by decide⟩

theorem inv_ready_level : BlockInv (ready levelPar) :=
  ⟨by decide, by decide, by decide, by decide, by decide, by decide, by decide, by decide, by decide, by decide⟩

theorem inv_loading {s : State} (h : BlockInv s) {k : BitVec 8} (hi : s.inited = true)
    (he : enabled s.par s.cfg 0 = true) (hk : k.toNat ≤ loadWrites s.par) : BlockInv (loading k s) := by
  obtain ⟨h1, h2, h3, -, h5, h6, h7, -, h9, h10⟩ := h
  refine ⟨h1, h2, h3, fun h => ?_, h5, h6, h7, fun _ => ⟨hi, he, hk, show ValidFrame 0x82C6#16 by decide⟩, h9, h10⟩
  exact Bool.noConfusion (hi.symm.trans h)

theorem inv_sending {s : State} (h : BlockInv s) {r : Count} (hi : s.inited = true)
    (he : ∃ c ∈ allChannels, enabled s.par s.cfg c = true ∧ (0#4).toNat = tableOf s.par c ∧
      0x40000034#32 = s.cfg.dstOf c)
    (hl : (BitVec.ofNat 16 (tableLen s.par)).toNat = tableLen s.par) (hr : r.toNat ≤ tableLen s.par) :
    BlockInv (sending r s) := by
  obtain ⟨h1, -, -, -, h5, h6, h7, h8, h9, h10⟩ := h
  refine ⟨h1, ⟨?_, .inr hl⟩, fun _ => ⟨rfl, hi, hl, he⟩, fun h => ?_, h5, h6, h7, h8, h9, h10⟩
  · exact hr.trans hl.ge
  · exact Bool.noConfusion (hi.symm.trans h)

theorem inv_sending_duty {r : Count} (hr : r.toNat ≤ 17) : BlockInv (sending r (ready dutyPar)) :=
  inv_sending inv_ready_duty (by decide) ⟨0, by decide, by decide⟩ (by decide) hr

theorem inv_sending_level {r : Count} (hr : r.toNat ≤ 136) : BlockInv (sending r (ready levelPar)) :=
  inv_sending inv_ready_level (by decide) ⟨0, by decide, by decide⟩ (by decide) hr

/-! ### Witnesses: the hypotheses of the obligations can be met -/

theorem witness_DecodeAndEncodeAgree : decode 0x30000416#32 = .ok (.load 0 1046) := by decide

theorem witness_IllegalWordIsAnsweredAndIgnored :
    ∃ (s : State) (w : Word), s.ldActive = false ∧ s.moves = .command w :: [] ∧ w &&& 0xFFFFFFFF#32 ≠ 0x10000000#32 ∧
      w &&& 0xFFFF0000#32 ≠ 0x20000000#32 ∧ w &&& 0xF0FF0000#32 ≠ 0x30000000#32 ∧
      w &&& 0xF0FFFFFF#32 ≠ 0x40000000#32 :=
  ⟨doing [.command 0x20010000#32] (ready dutyPar), 0x20010000#32, by decide⟩

/-- A response with a frame, and a step that answers nothing. -/
theorem witness_ResponseWordsHaveTheirFormat :
    ((after (step (doing [.command 0x20000416#32] (ready dutyPar)))).map State.rsp) = some (some 0x000082C6#32) ∧
      ((after (step (doing [.drain] (ready dutyPar)))).map State.rsp) = some none := by decide

theorem witness_StepRunsTheDecodedCommand :
    ∃ (s : State) (w : Word), s.moves = .command w :: [.drain] ∧ s.ldActive = false ∧ decode w = .ok (.send 0) :=
  ⟨doing [.command 0x40000000#32, .drain] (ready dutyPar), 0x40000000#32, by decide⟩

theorem witness_CommandWaitsForTheLoad :
    ∃ (s : State) (w : Word), s.ldActive = true ∧ s.moves = .command w :: [] :=
  ⟨doing [.command 0x40000000#32] (loading 16 (ready dutyPar)), 0x40000000#32, by decide⟩

/-- Both ways a word with the operation of ENCODE is illegal. -/
theorem witness_EncodeAnswersTheFrame :
    ((0x21000005#32).extractLsb' 28 4 = 2 ∧ (0x21000005#32).extractLsb' 24 4 ≠ 0) ∧
      ((0x20010000#32).extractLsb' 28 4 = 2 ∧ (0x20010000#32).extractLsb' 16 8 ≠ 0) := by decide

theorem witness_ChecksumBitByBit : (0 : Nat) < 4 ∧ (3 : Nat) < 4 := by decide

theorem witness_FrameConsequences :
    (2047#16).toNat ≤ 2047 ∧ encodeFrame 2047 = encodeFrame (2047#16) ∧ (0#16).toNat ≤ 2047 := by decide

/-- One channel and sixteen. -/
theorem witness_ConfigurationValidity :
    Config.referenceDuty.nchWf ∧ cfgValid Config.referenceDuty { testPorts with en := 1 } = true ∧
      { levelPar with nch := 16 }.nchWf ∧ cfgValid { levelPar with nch := 16 } { testPorts with en := 0x8001 } = true :=
  by decide

theorem witness_InitLatchesTheConfiguration :
    ((fresh dutyPar).par.nchWf ∧ (fresh dutyPar).inited = false ∧
        cfgValid (fresh dutyPar).par (fresh dutyPar).ports = true) ∧
      ((fresh levelPar).par.nchWf ∧ (fresh levelPar).inited = false ∧
        cfgValid (fresh levelPar).par (fresh levelPar).ports = true) := by decide

/-- An INIT of an instance with fewer than sixteen channels. -/
theorem witness_InitLeavesAbsentChannelsAlone :
    (fresh dutyPar).par.nchWf ∧ (fresh dutyPar).inited = false ∧
      cfgValid (fresh dutyPar).par (fresh dutyPar).ports = true ∧ (fresh dutyPar).par.nch ≤ (2#4).toNat := by decide

theorem witness_InitWritesNoMaskInDuty :
    (fresh dutyPar).par.strategy = .duty ∧ (fresh dutyPar).inited = false ∧
      cfgValid (fresh dutyPar).par (fresh dutyPar).ports = true := by decide

theorem witness_ConfigurationIsConstant :
    ∃ s : State, s.inited = true ∧ s.moves = [.command 0x10000000#32] ∧ (after (step s)).isSome = true :=
  ⟨doing [.command 0x10000000#32] (ready dutyPar), by decide⟩

theorem witness_ParametersAreFixed : (after (step (doing [.assertReset] (ready dutyPar)))).isSome = true := by decide

/-- A step that sets INITED, a step that clears it, and a state with INITED = 0. -/
theorem witness_OnlyInitSetsInited :
    ((after (step (doing [.command 0x10000000#32] (fresh dutyPar)))).map State.inited) = some true ∧
      (fresh dutyPar).inited = false ∧ (fresh dutyPar).ldActive = false ∧
      cfgValid (fresh dutyPar).par (fresh dutyPar).ports = true ∧
      ((after (step (doing [.assertReset] (ready dutyPar)))).map State.inited) = some false ∧
      (ready dutyPar).inited = true := by decide

/-- Another move, and an INIT that is rejected. -/
theorem witness_PortsMatterOnlyAtInit :
    (∃ s : State, (∀ (q : CfgPorts) rest, s.moves ≠ .drivePorts q :: rest) ∧
      ∀ rest, s.moves ≠ .command 0x10000000#32 :: rest) ∧
      ∃ s : State, (∀ (q : CfgPorts) rest, s.moves ≠ .drivePorts q :: rest) ∧
        s.moves = [.command 0x10000000#32] ∧ s.inited = true :=
  ⟨⟨doing [.drain] (ready dutyPar), by simp [doing], by simp [doing]⟩,
    ⟨doing [.command 0x10000000#32] (ready dutyPar), by simp [doing], by decide⟩⟩

/-- The first and the last enabled channel, Idle and Transmitting. -/
theorem witness_LoadIsAccepted :
    (∃ s : State, s.inited = true ∧ (0#4).toNat < s.par.nch ∧ s.cfg.en.getLsbD (0#4).toNat = true) ∧
      ∃ s : State, s.rem ≠ 0 ∧ s.inited = true ∧ (1#4).toNat < s.par.nch ∧ s.cfg.en.getLsbD (1#4).toNat = true :=
  ⟨⟨ready dutyPar, by decide⟩, ⟨sending 5 (ready dutyPar), by decide⟩⟩

theorem witness_LevelWordWriteRule : levelPar.strategy = .levelMux ∧ 0 < 128 ∧ 127 < 128 := by decide

/-- Duty: the first write, the last write, the finish. -/
theorem witness_LoadMicroSteps_duty :
    (∃ s : State, BlockInv s ∧ s.ldActive = true ∧ s.ldIdx = 0 ∧ s.ldIdx.toNat < loadWrites s.par) ∧
      (∃ s : State, BlockInv s ∧ s.ldActive = true ∧ s.ldIdx = 15 ∧ s.ldIdx.toNat < loadWrites s.par) ∧
      ∃ s : State, BlockInv s ∧ s.ldActive = true ∧ s.ldIdx.toNat = loadWrites s.par :=
  ⟨⟨loading 0 (ready dutyPar), inv_loading inv_ready_duty (by decide) (by decide) (by decide), by decide⟩,
    ⟨loading 15 (ready dutyPar), inv_loading inv_ready_duty (by decide) (by decide) (by decide), by decide⟩,
    ⟨loading 16 (ready dutyPar), inv_loading inv_ready_duty (by decide) (by decide) (by decide), by decide⟩⟩

/-- Level-multiplex: the first write, the last write, the finish. -/
theorem witness_LoadMicroSteps_level :
    (∃ s : State, BlockInv s ∧ s.ldActive = true ∧ s.ldIdx = 0 ∧ s.ldIdx.toNat < loadWrites s.par) ∧
      (∃ s : State, BlockInv s ∧ s.ldActive = true ∧ s.ldIdx = 127 ∧ s.ldIdx.toNat < loadWrites s.par) ∧
      ∃ s : State, BlockInv s ∧ s.ldActive = true ∧ s.ldIdx.toNat = loadWrites s.par :=
  ⟨⟨loading 0 (ready levelPar), inv_loading inv_ready_level (by decide) (by decide) (by decide), by decide⟩,
    ⟨loading 127 (ready levelPar), inv_loading inv_ready_level (by decide) (by decide) (by decide), by decide⟩,
    ⟨loading 128 (ready levelPar), inv_loading inv_ready_level (by decide) (by decide) (by decide), by decide⟩⟩

theorem witness_DutyTableAfterLoad :
    dutyPar.wf ∧ dutyPar.strategy = .duty ∧ (ready dutyPar).cfg.speed ≠ 3 ∧ Memory.wf [(⟨0, 5⟩, 20)] := by decide

/-- The reference edges, which differ in RISE, and edges that differ in FALL. -/
theorem witness_LevelTableAfterLoad :
    (levelPar.wf ∧ levelPar.strategy = .levelMux ∧ (ready levelPar).cfg.maskOf 1 ≠ 0 ∧ Memory.wf [(⟨0, 5⟩, 1)] ∧
        levelPar.rise1 ≠ levelPar.rise0) ∧
      ∃ p : Params, p.wf ∧ p.strategy = .levelMux ∧ p.fall1 ≠ p.fall0 :=
  ⟨by decide, { levelPar with rise0 := 0, fall0 := 3 }, by decide⟩

theorem witness_OtherChannelsKeepTheirBits :
    ∃ s : State, BlockInv s ∧ s.par.strategy = .levelMux ∧ s.inited = true ∧ enabled s.par s.cfg 0 = true ∧
      enabled s.par s.cfg 1 = true ∧ (0#4) ≠ 1#4 :=
  ⟨ready levelPar, inv_ready_level, by decide⟩

/-- A LOAD with its 17 micro-steps and a DRAIN among them, during a transfer of its table. -/
theorem witness_LoadEndsAsLoadTable :
    ∃ (s : State) (ms : List Move), BlockInv s ∧ s.ldActive = false ∧ s.inited = true ∧
      enabled s.par s.cfg 0 = true ∧ (∀ m ∈ ms, m.isAdvanceOrDrain = true) ∧
      loadWrites s.par + 1 ≤ ms.count .advance ∧ s.moves = .command (encode (.load 0 1046)) :: (ms ++ []) :=
  ⟨doing (.command (encode (.load 0 1046)) :: .drain :: List.replicate 17 .advance) (sending 17 (ready dutyPar)),
    .drain :: List.replicate 17 .advance, inv_sending_duty (by decide), by decide⟩

/-- Two memories that differ only in what the LOAD overwrites, in each strategy. -/
theorem witness_LoadEndsAsLoadTable_memories :
    (dutyPar.strategy = .duty ∧ Memory.wf [(⟨0, 5⟩, 20)] ∧ Memory.wf [(⟨0, 5⟩, 40)] ∧
        ∀ a : Addr, a.table ≠ (0#4).toNat ∨ 16 ≤ a.index →
          Memory.get [(⟨0, 5⟩, 20)] a = Memory.get [(⟨0, 5⟩, 40)] a) ∧
      (levelPar.strategy = .levelMux ∧ Memory.wf [(⟨0, 5⟩, 1)] ∧ Memory.wf [(⟨0, 5⟩, 0x10000)] ∧
        (∀ a : Addr, a.table ≠ 0 ∨ 128 ≤ a.index →
          Memory.get [(⟨0, 5⟩, 1)] a = Memory.get [(⟨0, 5⟩, 0x10000)] a) ∧
        ∀ i < 128, Memory.get [(⟨0, 5⟩, 1)] ⟨0, i⟩ &&& ~~~channelBits 1 =
          Memory.get [(⟨0, 5⟩, 0x10000)] ⟨0, i⟩ &&& ~~~channelBits 1) := by
  refine ⟨⟨by decide, by decide, by decide, fun a h => ?_⟩, by decide, by decide, by decide, fun a h => ?_, by decide⟩
  · have : a ≠ ⟨0, 5⟩ := by rintro rfl; revert h; decide
    simp [Memory.get, this]
  · have : a ≠ ⟨0, 5⟩ := by rintro rfl; revert h; decide
    simp [Memory.get, this]

/-- A micro-step and a DRAIN. -/
def twoMoves : List Move := [.advance, .drain]

/-- Idle, and Transmitting another channel's duty table. -/
theorem witness_RaceFreeLoadLeavesTheTransfer :
    (∃ s : State, BlockInv s ∧ s.ldActive = false ∧ s.inited = true ∧ enabled s.par s.cfg 1 = true ∧
        s.rem = 0 ∧ LoadIsRaceFree s 1 ∧ s.moves = .command (encode (.load 1 7)) :: twoMoves) ∧
      (∃ s : State, BlockInv s ∧ s.ldActive = false ∧ s.inited = true ∧ enabled s.par s.cfg 1 = true ∧
        s.rem ≠ 0 ∧ LoadIsRaceFree s 1 ∧ s.moves = .command (encode (.load 1 7)) :: twoMoves) ∧
      twoMoves = twoMoves ++ [] ∧ ∀ m ∈ twoMoves, m.isAdvanceOrDrain = true :=
  ⟨⟨doing [.command (encode (.load 1 7)), .advance, .drain] (ready levelPar), inv_ready_level, by decide⟩,
    ⟨doing [.command (encode (.load 1 7)), .advance, .drain] (sending 17 (ready dutyPar)), inv_sending_duty (by decide), by decide⟩,
    by decide⟩

theorem witness_RacingTransferDeliversOldOrNew :
    ∃ s : State, BlockInv s ∧ s.ldActive = false ∧ s.inited = true ∧ enabled s.par s.cfg 0 = true ∧
      (∀ m ∈ twoMoves, m.isAdvanceOrDrain = true) ∧ s.moves = .command (encode (.load 0 7)) :: (twoMoves ++ []) ∧
      s.rem ≠ 0 ∧
      s.par.strategy = .levelMux ∧ enabled s.par s.cfg 1 = true :=
  ⟨doing [.command (encode (.load 0 7)), .advance, .drain] (sending 136 (ready levelPar)), inv_sending_level (by decide),
    by decide⟩

theorem witness_EveryRacePatternHappens :
    (∃ s : State, BlockInv s ∧ s.ldActive = false ∧ s.inited = true ∧ enabled s.par s.cfg 0 = true ∧ s.rem ≠ 0 ∧
        s.orSrc.toNat = tableOf s.par 0) ∧
      ∃ s : State, BlockInv s ∧ s.ldActive = false ∧ s.inited = true ∧ enabled s.par s.cfg 1 = true ∧ s.rem ≠ 0 ∧
        s.orSrc.toNat = tableOf s.par 1 :=
  ⟨⟨sending 9 (ready dutyPar), inv_sending_duty (by decide), by decide⟩,
    ⟨sending 136 (ready levelPar), inv_sending_level (by decide), by decide⟩⟩

theorem witness_SendStartsTheTransfer :
    (∃ s : State, s.par.wf ∧ s.inited = true ∧ (1#4).toNat < s.par.nch ∧ s.cfg.en.getLsbD (1#4).toNat = true ∧
        s.rem = 0 ∧ s.par.strategy = .duty) ∧
      ∃ s : State, s.par.wf ∧ s.inited = true ∧ (1#4).toNat < s.par.nch ∧ s.cfg.en.getLsbD (1#4).toNat = true ∧
        s.rem = 0 ∧ s.par.strategy = .levelMux :=
  ⟨⟨ready dutyPar, by decide⟩, ⟨ready levelPar, by decide⟩⟩

theorem witness_BusySendIsRejected :
    (∃ s : State, s.inited = true ∧ enabled s.par s.cfg 1 = true ∧ s.rem ≠ 0) ∧
      ∃ s : State, s.inited = true ∧ enabled s.par s.cfg 1 = true ∧ s.rem = 0 ∧ s.par.wf :=
  ⟨⟨sending 1 (ready dutyPar), by decide⟩, ⟨sending 0 (ready dutyPar), by decide⟩⟩

/-- Illegal; INIT a second time and with ports that are not valid; LOAD and SEND before INIT, of a channel that does not exist, of
one that is disabled; SEND while busy. -/
theorem witness_RejectionPriority :
    (∃ s : State, s.ldActive = false ∧ s.inited = true ∧ s.rem ≠ 0 ∧ s.par.nch ≤ (5#4).toNat ∧
        s.cfg.en.getLsbD (2#4).toNat = false ∧ (1#4).toNat < s.par.nch ∧ s.cfg.en.getLsbD (1#4).toNat = true) ∧
      (∃ s : State, s.ldActive = false ∧ s.inited = false ∧ cfgValid s.par s.ports = false) ∧
      decode 0x50000000#32 = .error .noSuchOperation ∧ decode 0x10000000#32 = .ok .init ∧
      decode 0x35000005#32 = .ok (.load 5 5) ∧ decode 0x32000005#32 = .ok (.load 2 5) ∧
      decode 0x45000000#32 = .ok (.send 5) ∧ decode 0x42000000#32 = .ok (.send 2) ∧
      decode 0x41000000#32 = .ok (.send 1) :=
  ⟨⟨sending 3 (ready levelPar), by decide⟩, ⟨State.resetOf dutyPar, by decide⟩, by decide⟩

/-- The first and the last entry of a transfer. -/
theorem witness_DrainDeliversOneEntry :
    (∃ s : State, BlockInv s ∧ s.moves = .drain :: [] ∧ s.orEn = true ∧ s.rem = 17) ∧
      ∃ s : State, BlockInv s ∧ s.moves = .drain :: [] ∧ s.orEn = true ∧ s.rem = 1 :=
  ⟨⟨doing [.drain] (sending 17 (ready dutyPar)), inv_sending_duty (by decide), by decide⟩,
    ⟨doing [.drain] (sending 1 (ready levelPar)), inv_sending_level (by decide), by decide⟩⟩

theorem witness_CompletionKeepsTheBinding : ∃ s : State, BlockInv s ∧ s.moves = .drain :: [] ∧ s.rem = 1 :=
  ⟨doing [.drain] (sending 1 (ready dutyPar)), inv_sending_duty (by decide), by decide⟩

theorem witness_MovesWithNoStepChangeNothing :
    (∃ s : State, s.moves = .drain :: [] ∧ s.orEn = false) ∧
      (∃ s : State, s.moves = .drain :: [] ∧ s.orEn = true ∧ s.rem = 0) ∧
      ∃ s : State, s.moves = .advance :: [] ∧ s.ldActive = false :=
  ⟨⟨doing [.drain] (ready dutyPar), by decide⟩, ⟨doing [.drain] (sending 0 (ready dutyPar)), by decide⟩,
    ⟨doing [.advance] (ready dutyPar), by decide⟩⟩

/-- Idle to Transmitting, Transmitting by a DRAIN, Idle to Idle. -/
theorem witness_RemainingCountTransitions :
    (∃ s : State, BlockInv s ∧ s.rem = 0 ∧ ((after (step s)).map State.rem) = some 17) ∧
      (∃ s : State, BlockInv s ∧ s.rem ≠ 0 ∧ ((after (step s)).map State.rem) = some 16) ∧
      ∃ s : State, BlockInv s ∧ s.rem = 0 ∧ ((after (step s)).map State.rem) = some 0 :=
  ⟨⟨doing [.command 0x40000000#32] (ready dutyPar), inv_ready_duty, by decide⟩,
    ⟨doing [.drain] (sending 17 (ready dutyPar)), inv_sending_duty (by decide), by decide⟩,
    ⟨doing [.sample] (ready dutyPar), inv_ready_duty, by decide⟩⟩

theorem witness_OutputGoesToAnEnabledDestination :
    ∃ s : State, BlockInv s ∧ ((after (step s)).map fun t => t.out.length) = some 1 :=
  ⟨doing [.drain] (sending 17 (ready dutyPar)), inv_sending_duty (by decide), by decide⟩

/-- A rejected SEND, an ENCODE, a sample and sixteen DRAIN steps, then the seventeenth. -/
theorem witness_UnracedTransferDeliversTheTable :
    ∃ (s : State) (ms : List Move), BlockInv s ∧ s.ldActive = false ∧ s.inited = true ∧
      enabled s.par s.cfg 0 = true ∧ s.rem = 0 ∧ (∀ m ∈ ms, m.loadsNothing = true) ∧
      ms.count .drain + 1 = tableLen s.par ∧ s.moves = .command (encode (.send 0)) :: (ms ++ .drain :: []) :=
  ⟨doing (.command (encode (.send 0)) :: .command 0x41000000#32 :: .command 0x20000007#32 :: .sample ::
      List.replicate 17 .drain) (ready dutyPar),
    .command 0x41000000#32 :: .command 0x20000007#32 :: .sample :: List.replicate 16 .drain,
    inv_ready_duty, rfl, rfl, rfl, rfl, by decide, rfl, rfl⟩

/-- Duty: a LOAD of another channel and a sample fall between the DRAIN steps. -/
theorem witness_TransferOfASparedTableDeliversIt_duty :
    ∃ (s : State) (ms : List Move), BlockInv s ∧ s.ldActive = false ∧ s.inited = true ∧
      enabled s.par s.cfg 0 = true ∧ s.rem = 0 ∧ (∀ m ∈ ms, m.sparesTable s (tableOf s.par 0) = true) ∧
      ms.count .drain + 1 = tableLen s.par ∧ s.moves = .command (encode (.send 0)) :: (ms ++ .drain :: []) :=
  ⟨doing (.command (encode (.send 0)) :: .command (encode (.load 1 5)) :: .sample :: List.replicate 17 .drain)
      (ready dutyPar),
    .command (encode (.load 1 5)) :: .sample :: List.replicate 16 .drain,
    inv_ready_duty, rfl, rfl, rfl, rfl, by decide, rfl, rfl⟩

/-- Level-multiplex: a LOAD of a channel that is not enabled is presented, and every other LOAD is of the table itself. -/
theorem witness_TransferOfASparedTableDeliversIt_level :
    (Move.command (encode (.load 2 5))).sparesTable (ready levelPar) (tableOf levelPar 0) = true ∧
      (Move.command (encode (.load 1 5))).sparesTable (ready levelPar) (tableOf levelPar 0) = false := by decide

theorem witness_NeverLoadedTableSendsZeros :
    ∃ s : State, BlockInv s ∧ s.ldActive = false ∧ s.inited = true ∧ enabled s.par s.cfg 1 = true ∧ s.rem = 0 ∧
      s.tbl = [] ∧ s.moves = [.command (encode (.send 1))] :=
  ⟨doing [.command (encode (.send 1))] (ready levelPar), inv_ready_level, by decide⟩

/-- A LOAD and a transfer in progress together; and neither. -/
theorem witness_TransmittingIsFollowedByIdle :
    (∃ s : State, BlockInv s ∧ s.moves = [] ∧ s.ldActive = true ∧ s.rem ≠ 0) ∧
      ∃ s : State, BlockInv s ∧ s.moves = [] ∧ s.ldActive = false :=
  ⟨⟨loading 3 (sending 9 (ready dutyPar)),
      inv_loading (inv_sending_duty (by decide)) (by decide) (by decide) (by decide), by decide⟩,
    ⟨ready levelPar, inv_ready_level, by decide⟩⟩

theorem witness_SafePatternDeliversTheFrame :
    ∃ s : State, BlockInv s ∧ s.ldActive = false ∧ s.inited = true ∧ enabled s.par s.cfg 0 = true ∧ s.rem = 0 ∧
      s.moves = [.command (encode (.load 0 1046)), .command (encode (.send 0))] :=
  ⟨doing [.command (encode (.load 0 1046)), .command (encode (.send 0))] (ready dutyPar), inv_ready_duty, by decide⟩

/-- The empty memory and low lines, at the first word, the last data word and the last gap word; and a word that names no line of
the mask. -/
theorem witness_LoadedChannelPulsesOnItsLines :
    (levelPar.wf ∧ levelPar.strategy = .levelMux ∧ Memory.wf [] ∧ (∀ i : Nat, 128 ≤ i → Memory.get [] ⟨0, i⟩ = 0) ∧
        (0#16 &&& (ready levelPar).cfg.maskOf 0) = 0 ∧ 0 < tableLen levelPar ∧ 127 < tableLen levelPar ∧
        135 < tableLen levelPar) ∧
      ∀ w ∈ ([0x00020002#32] : List Entry), w &&& channelBits 1 = 0 :=
  ⟨⟨by decide, by decide, by decide, fun _ _ => rfl, by decide, by decide, by decide, by decide⟩, by
    intro w hw; rw [List.mem_singleton.1 hw]; decide⟩

/-- An entry of the whole period and an entry of 0, at the first and the last tick. -/
theorem witness_DutyWaveIsHighForTheEntry :
    (∀ d ∈ [3#16, 0#16], d.toNat ≤ 3) ∧ 0 < 3 ∧ 2 < 3 ∧ 1 < [3#16, 0#16].length := by simp

theorem witness_StepKeepsTheInvariant :
    ∃ s : State, BlockInv s ∧ ((after (step s)).map State.ldIdx) = some 8 :=
  ⟨doing [.advance] (loading 7 (sending 9 (ready levelPar))),
    inv_loading (inv_sending_level (by decide)) (by decide) (by decide) (by decide), by decide⟩

theorem witness_ResetHasTheInvariant : dutyPar.wf ∧ levelPar.wf := by decide

theorem witness_ReachableStatesHaveTheirInvariants :
    dutyPar.wf ∧
      ((after (runSteps 2 { State.resetOf dutyPar with
        ports := testPorts, moves := [.command 0x10000000#32, .command 0x40000000#32] })).map State.rem) =
        some 17 := by decide

/-- The first and the last write of a LOAD, the first and the last entry of a transfer, the last channel. -/
theorem witness_IndicesAreInRange :
    (∃ s : State, BlockInv s ∧ s.ldActive = true ∧ s.ldIdx = 0 ∧ s.ldIdx.toNat < loadWrites s.par ∧ s.rem = 17 ∧
        enabled s.par s.cfg 1 = true) ∧
      ∃ s : State, BlockInv s ∧ s.ldActive = true ∧ s.ldIdx = 127 ∧ s.ldIdx.toNat < loadWrites s.par ∧ s.rem = 1 :=
  ⟨⟨loading 0 (sending 17 (ready dutyPar)),
      inv_loading (inv_sending_duty (by decide)) (by decide) (by decide) (by decide), by decide⟩,
    ⟨loading 127 (sending 1 (ready levelPar)),
      inv_loading (inv_sending_level (by decide)) (by decide) (by decide) (by decide), by decide⟩⟩

theorem witness_ResetClearsEverything :
    (∃ s : State, s.moves = .assertReset :: [] ∧ s.ldActive = true ∧ s.rem ≠ 0) ∧
      ∃ s : State, s.inited = true ∧ ((after (step s)).map State.inited) = some false :=
  ⟨⟨doing [.assertReset] (loading 3 (sending 9 (ready dutyPar))), by decide⟩,
    ⟨doing [.assertReset] (ready dutyPar), by decide⟩⟩

theorem witness_ResetLeavesTheHostAlone :
    (doing [.assertReset, .sample] (ready levelPar)).moves = .assertReset :: [.sample] := by decide

/-- The first entry write of a level-multiplex LOAD. -/
theorem witness_OnlyInitAndLoadWriteTables :
    ∃ s : State, BlockInv s ∧ ((after (step s)).map State.tbl) = some [(⟨0, 0⟩, 1)] :=
  ⟨doing [.advance] (loading 0 (ready levelPar)), inv_loading inv_ready_level (by decide) (by decide) (by decide), by decide⟩

theorem witness_EntryReadsItsLatestWrite :
    ∃ s : State, s.tbl.wf ∧ EntryExists s.par 1 16 ∧ ¬EntryExists s.par 1 17 ∧ ¬EntryExists s.par 2 0 ∧
      ((1, 16) : Nat × Nat) ≠ (0, 0) :=
  ⟨ready dutyPar, by decide⟩

theorem witness_EqualReadsMeanEqualMemories :
    Memory.wf [(⟨0, 5⟩, 20)] ∧ ∀ a, Memory.get [(⟨0, 5⟩, 20)] a = Memory.get [(⟨0, 5⟩, 20)] a :=
  ⟨by decide, fun _ => rfl⟩

theorem witness_SampleShowsTheOutputs :
    (doing [.sample] (sending 9 (ready dutyPar))).moves = .sample :: [] := by decide

end Sys2Proof.Tests
end

/-! SUPPORT. The proofs about 10_state.md: INITED, `rst`, and the invariant of the reachable states (R22, R32, R33). -/

namespace Sys2Proof

/-! ### The command word of INIT -/

/-- A command word is its four fields in order (30_encoding.md R61). -/
theorem word_eq_fields (w : Word) : w = fieldOp w ++ fieldCh w ++ fieldZ w ++ fieldThr w := by
  refine BitVec.eq_of_getLsbD_eq fun i hi => ?_
  simp only [fieldOp, fieldCh, fieldZ, fieldThr, BitVec.getLsbD_append, BitVec.getLsbD_extractLsb']
  interval_cases i <;> simp

theorem decodeInit_eq_init_iff (ch : Channel) (thr : Throttle) :
    decodeInit ch thr = .ok .init ↔ ch = 0 ∧ thr = 0 := by
  unfold decodeInit; split_ifs <;> simp_all

/-- Only the row of INIT decodes to INIT: the other rows of 30_encoding.md R63 decode to their own command. -/
theorem decode_eq_init_iff_fields (w : Word) :
    decode w = .ok .init ↔ fieldZ w = 0 ∧ fieldOp w = 1 ∧ fieldCh w = 0 ∧ fieldThr w = 0 := by
  unfold decode
  by_cases hz : fieldZ w = 0#8
  · by_cases hop : fieldOp w = 1#4
    · simp [hz, hop, decodeInit_eq_init_iff]
    · simp only [hz, hop, decodeEncode, decodeSend]
      split_ifs <;> simp_all
  · simp [hz]

/-- The one word of INIT (30_encoding.md R63, R72). -/
theorem decode_eq_init_iff (w : Word) : decode w = .ok .init ↔ w = 0x10000000#32 := by
  rw [decode_eq_init_iff_fields]
  constructor
  · rintro ⟨hz, hop, hch, hthr⟩
    rw [word_eq_fields w, hz, hop, hch, hthr]; rfl
  · rintro rfl; decide

end Sys2Proof

namespace Sys2Proof.Machine

/-! ### What each operation does to INITED and to the parameters -/

theorem loadStep_frame {s t : State} (h : loadStep s = .next t) : t.inited = s.inited ∧ t.par = s.par := by
  rcases loadStep_cases h with ⟨-, rfl⟩ | ⟨-, -, rfl⟩ | ⟨-, -, rfl⟩ <;> exact ⟨rfl, rfl⟩

theorem drainStep_frame {s t : State} (h : drainStep s = .next t) : t.inited = s.inited ∧ t.par = s.par := by
  rcases drainStep_cases h with ⟨-, rfl⟩ | ⟨-, -, rfl⟩ <;> exact ⟨rfl, rfl⟩

theorem acceptCommand_frame {w : Word} {s t : State} (h : acceptCommand w s = .next t) :
    (t.inited = s.inited ∨ (decode w = .ok .init ∧ cfgValid s.par s.ports = true ∧ t.inited = true)) ∧
      t.par = s.par := by
  rcases acceptCommand_cases w s with
    ⟨st, -, e⟩ | ⟨thr, -, e⟩ | ⟨hw, -, hv, e⟩ | ⟨ch, thr, -, -, -, e⟩ | ⟨ch, -, -, -, -, e⟩ <;>
    obtain rfl : _ = t := by simpa [e] using h
  case inr.inr.inl => exact ⟨.inr ⟨hw, hv, rfl⟩, rfl⟩
  all_goals exact ⟨.inl rfl, rfl⟩

/-- A step keeps the parameters, and it keeps INITED, or accepts an INIT, or is `rst` (10_state.md R22). -/
theorem step_frame {s t : State} (h : step s = .next t) :
    (t.inited = s.inited ∨
      (t.inited = true ∧ s.ldActive = false ∧ cfgValid s.par s.ports = true ∧
        ∃ rest, s.moves = .command 0x10000000#32 :: rest) ∨
      (t.inited = false ∧ ∃ rest, s.moves = .assertReset :: rest)) ∧ t.par = s.par := by
  rcases step_cases s with ⟨-, -, e⟩ | ⟨-, -, e⟩ | ⟨w, rest, hm, ha, e⟩ | ⟨w, rest, -, -, e⟩ | ⟨rest, -, e⟩ |
      ⟨rest, -, e⟩ | ⟨q, rest, -, e⟩ | ⟨rest, -, e⟩ | ⟨rest, hm, e⟩ <;> rw [e] at h
  · exact (loadStep_frame h).imp_left .inl
  · exact (drainStep_frame h).imp_left .inl
  · obtain ⟨hk | ⟨hw, hv, ht⟩, hp⟩ := acceptCommand_frame h
    · exact ⟨.inl hk, hp⟩
    · obtain rfl := (decode_eq_init_iff w).1 hw
      exact ⟨.inr (.inl ⟨ht, ha, hv, rest, hm⟩), hp⟩
  · exact (loadStep_frame h).imp_left .inl
  · exact (loadStep_frame h).imp_left .inl
  · exact (drainStep_frame h).imp_left .inl
  · cases h; exact ⟨.inl rfl, rfl⟩
  · cases h; exact ⟨.inl rfl, rfl⟩
  · cases h; exact ⟨.inr (.inr ⟨rfl, rest, hm⟩), rfl⟩

theorem step_par {s t : State} (h : step s = .next t) : t.par = s.par := (step_frame h).2

/-- Only `rst` takes INITED from 1 to 0 (10_state.md R22; 70_reset_and_hazards.md R180). -/
theorem step_clears_inited {s t : State} (h : step s = .next t) (hs : s.inited = true) (ht : t.inited = false) :
    ∃ rest, s.moves = .assertReset :: rest := by
  obtain ⟨hcases, -⟩ := step_frame h
  rcases hcases with hk | ⟨hk, -⟩ | ⟨-, hr⟩
  · simp [hs, ht] at hk
  · simp [ht] at hk
  · exact hr

theorem step_assertReset {s : State} {rest : List Move} (h : s.moves = .assertReset :: rest) :
    step s = .next (assertReset (s.quiet.taking rest)) := by
  simp [step, h, performMove]

theorem step_command {s : State} {w : Word} {rest : List Move} (h : s.moves = .command w :: rest)
    (ha : s.ldActive = false) : step s = acceptCommand w (s.quiet.taking rest) := by
  simp [step, h, performMove, State.cmdReady, ha]

/-- An INIT that meets the conditions of 43_init.md R150 is accepted. -/
theorem execInit_accepts {s : State} (hi : s.inited = false) (hv : cfgValid s.par s.ports = true) :
    execInit s = .next (respond .ok 0 (latchConfig s)) := by
  simp [execInit, hi, hv]

/-- Before an INIT every LOAD and every SEND is turned away (42_admission.md R130; 41_waveform_table.md R100). -/
theorem execLoad_uninitialised {s : State} (hi : s.inited = false) (ch : Channel) (thr : Throttle) :
    execLoad ch thr s = .next (respond .configRejected 0 s) := by
  simp [execLoad, hi, reject]

theorem execSend_uninitialised {s : State} (hi : s.inited = false) (ch : Channel) :
    execSend ch s = .next (respond .configRejected 0 s) := by
  simp [execSend, hi, reject]

/-! ### CFG after reset (10_state.md R32) -/

@[simp] theorem CfgRecord.zero_speed : CfgRecord.zero.speed = 0 := rfl

@[simp] theorem CfgRecord.zero_enOf (c : Channel) : CfgRecord.zero.enOf c = false := by
  simp [CfgRecord.zero, CfgRecord.enOf]

@[simp] theorem CfgRecord.zero_dstOf (c : Channel) : CfgRecord.zero.dstOf c = 0 := by
  simp [CfgRecord.zero, CfgRecord.dstOf]

@[simp] theorem CfgRecord.zero_maskOf (c : Channel) : CfgRecord.zero.maskOf c = 0 := by
  simp [CfgRecord.zero, CfgRecord.maskOf]

/-! ### The sizes and the operands -/

theorem tableLen_le {p : Params} (h : p.gapWf) : tableLen p ≤ 144 := by
  unfold tableLen
  split <;> simp only [packetBits, slotsPerBit] <;> omega

theorem loadWrites_le (p : Params) : loadWrites p ≤ 128 := by
  cases hs : p.strategy <;> simp [loadWrites, hs, packetBits, slotsPerBit]

theorem toNat_ofNat_tableLen {p : Params} (h : p.gapWf) : (BitVec.ofNat 16 (tableLen p)).toNat = tableLen p := by
  have hle := tableLen_le h
  rw [BitVec.toNat_ofNat, Nat.mod_eq_of_lt (by omega)]

theorem toNat_ofNat_tableOf (p : Params) (c : Channel) : (BitVec.ofNat 4 (tableOf p c)).toNat = tableOf p c := by
  cases hs : p.strategy <;> simp [tableOf, hs]

theorem mem_allChannels (c : Channel) : c ∈ allChannels :=
  List.mem_map.2 ⟨c.toNat, List.mem_range.2 c.isLt, by simp⟩

theorem lt_nch_of_enabled {p : Params} {g : CfgRecord} {c : Channel} (h : enabled p g c = true) : c.toNat < p.nch := by
  simp only [enabled, Bool.and_eq_true, decide_eq_true_eq] at h
  exact h.1

theorem tableOf_lt_tableCount {p : Params} {g : CfgRecord} {c : Channel} (h : enabled p g c = true) :
    tableOf p c < tableCount p := by
  have hc := lt_nch_of_enabled h
  cases hs : p.strategy <;> simp [tableOf, tableCount, hs, hc]

theorem getLsbD_foldl_enMask (p : Params) (g : CfgRecord) (i : Nat) (cs : List Channel) (m : Half) :
    (cs.foldl (fun m c => if enabled p g c then m ||| g.maskOf c else m) m).getLsbD i = true ↔
      m.getLsbD i = true ∨ ∃ c ∈ cs, enabled p g c = true ∧ (g.maskOf c).getLsbD i = true := by
  induction cs generalizing m with
  | nil => simp
  | cons c cs ih =>
    rw [List.foldl_cons, ih]
    by_cases he : enabled p g c = true <;> simp [he, or_assoc]

/-- ENMASK has the bits of the enabled channels' masks (10_state.md R24). -/
theorem getLsbD_enMask (p : Params) (g : CfgRecord) (i : Nat) :
    (enMask p g).getLsbD i = true ↔ ∃ c, enabled p g c = true ∧ (g.maskOf c).getLsbD i = true := by
  simp [enMask, getLsbD_foldl_enMask, mem_allChannels]

theorem maskOf_and_not_enMask {p : Params} {g : CfgRecord} {c : Channel} (h : enabled p g c = true) :
    g.maskOf c &&& ~~~enMask p g = 0 := by
  refine BitVec.eq_of_getLsbD_eq fun i hi => ?_
  have hm : (g.maskOf c).getLsbD i = true → (enMask p g).getLsbD i = true := fun hb =>
    (getLsbD_enMask p g i).2 ⟨c, h, hb⟩
  cases hb : (g.maskOf c).getLsbD i <;> simp_all

/-! ### The configuration that an accepted INIT latches (43_init.md R152) -/

theorem getElem_latchBelow {α : Type} (n : Nat) (old new : Vector α 16) (i : Nat) (h : i < 16) :
    (latchBelow n old new)[i] = if i < n then new[i] else old[i] := by
  simp [latchBelow]

theorem getLsbD_lowBits (n : Nat) (c : Channel) : (lowBits n).getLsbD c.toNat = decide (c.toNat < n) := by
  have hc : c.toNat < 16 := c.isLt
  rw [lowBits, BitVec.getLsbD_ofNat, Nat.testBit_two_pow_sub_one, decide_eq_true hc, Bool.true_and]

theorem portEn_enOf (p : Params) (q : CfgPorts) (c : Channel) :
    q.enOf p c = (q.en.getLsbD c.toNat && decide (c.toNat < p.nch)) := by
  rw [CfgPorts.enOf, portEn, BitVec.getLsbD_and, getLsbD_lowBits]

theorem latchedCfg_enOf (p : Params) (q : CfgPorts) (g : CfgRecord) (c : Channel) :
    (latchedCfg p q g).enOf c = if c.toNat < p.nch then q.en.getLsbD c.toNat else g.enOf c := by
  have hc : c.toNat < 16 := c.isLt
  simp only [latchedCfg, CfgRecord.enOf, portEn, BitVec.getLsbD_or, BitVec.getLsbD_and, BitVec.getLsbD_not,
    getLsbD_lowBits]
  by_cases hn : c.toNat < p.nch <;> simp [hn, hc]

theorem latchedCfg_dstOf (p : Params) (q : CfgPorts) (g : CfgRecord) (c : Channel) :
    (latchedCfg p q g).dstOf c = if c.toNat < p.nch then q.dstOf c else g.dstOf c :=
  getElem_latchBelow _ _ _ _ c.isLt

theorem latchedCfg_maskOf_duty {p : Params} (h : p.strategy = .duty) (q : CfgPorts) (g : CfgRecord) (c : Channel) :
    (latchedCfg p q g).maskOf c = g.maskOf c := by
  simp [latchedCfg, CfgRecord.maskOf, h]

theorem latchedCfg_maskOf_levelMux {p : Params} (h : p.strategy = .levelMux) (q : CfgPorts) (g : CfgRecord)
    (c : Channel) : (latchedCfg p q g).maskOf c = if c.toNat < p.nch then q.maskOf c else g.maskOf c := by
  simp [latchedCfg, CfgRecord.maskOf, CfgPorts.maskOf, h, getElem_latchBelow]

theorem enabled_latchedCfg (p : Params) (q : CfgPorts) (g : CfgRecord) (c : Channel) :
    enabled p (latchedCfg p q g) c = q.enOf p c := by
  rw [enabled, latchedCfg_enOf, portEn_enOf]
  by_cases hn : c.toNat < p.nch <;> simp [hn]

/-- Conditions (c) and (d) of 43_init.md R151. -/
theorem masksValid_iff (p : Params) (q : CfgPorts) :
    masksValid p q = true ↔
      ∀ a ∈ allChannels, q.enOf p a = true →
        q.maskOf a ≠ 0 ∧ ∀ b ∈ allChannels, q.enOf p b = true → a ≠ b → q.maskOf a &&& q.maskOf b = 0 := by
  simp only [masksValid, List.all_eq_true, Bool.or_eq_true, Bool.and_eq_true, Bool.not_eq_true', bne_iff_ne,
    beq_iff_eq]
  refine forall₂_congr fun a _ => ?_
  rw [← Bool.not_eq_true, ← imp_iff_not_or]
  refine imp_congr_right fun _ => and_congr_right fun _ => forall₂_congr fun b _ => ?_
  rw [← Bool.not_eq_true]
  tauto

theorem speed_ne_of_cfgValid {p : Params} {q : CfgPorts} (h : cfgValid p q = true) : q.speed ≠ 3 := by
  simp only [cfgValid, Bool.and_eq_true, bne_iff_ne] at h
  exact h.1.1

theorem masksValid_of_cfgValid {p : Params} {q : CfgPorts} (h : cfgValid p q = true) (hs : p.strategy = .levelMux) :
    masksValid p q = true := by
  simp only [cfgValid, hs, Bool.and_eq_true] at h
  exact h.2

/-! ### The frame that a LOAD keeps (40_frame_encoder.md) -/

/-- The checksum is the XOR of the payload's nibbles (40_frame_encoder.md R83). -/
theorem checksum_eq (p : BitVec 12) :
    checksum p = p.extractLsb' 0 4 ^^^ p.extractLsb' 4 4 ^^^ p.extractLsb' 8 4 := by
  refine BitVec.eq_of_getLsbD_eq fun i hi => ?_
  interval_cases i <;> simp [checksum]

/-- The low nibble of a frame is the checksum, the nibbles above it are the payload's (40_frame_encoder.md R84). -/
theorem packFrame_checksum (p : BitVec 12) : (packFrame p).extractLsb' 0 4 = checksum p := by
  refine BitVec.eq_of_getLsbD_eq fun i hi => ?_
  interval_cases i <;> simp [packFrame]

theorem getLsbD_packFrame_payload (p : BitVec 12) {i : Nat} (hi : i < 12) :
    (packFrame p).getLsbD (4 + i) = p.getLsbD i := by
  interval_cases i <;> simp [packFrame]

theorem packFrame_payload (p : BitVec 12) {k : Nat} (hk : k + 4 ≤ 12) :
    (packFrame p).extractLsb' (4 + k) 4 = p.extractLsb' k 4 := by
  refine BitVec.eq_of_getLsbD_eq fun i hi => ?_
  simp only [BitVec.getLsbD_extractLsb', hi, Nat.add_assoc, getLsbD_packFrame_payload p (show k + i < 12 by omega)]

theorem getLsbD_payload_zero (t : BitVec 11) : (payload t).getLsbD 0 = false := by
  simp [payload, telemetryBit]

/-- Every encoded frame is valid (40_frame_encoder.md R89 (a), (b)). -/
theorem validFrame_encodeFrame (thr : Throttle) : ValidFrame (encodeFrame thr) := by
  constructor
  · exact (getLsbD_packFrame_payload _ (i := 0) (by omega)).trans (getLsbD_payload_zero _)
  · rw [encodeFrame, packFrame_checksum, checksum_eq, packFrame_payload _ (k := 0) (by omega),
      packFrame_payload _ (k := 4) (by omega), packFrame_payload _ (k := 8) (by omega)]
    generalize (payload (reduceThrottle thr)).extractLsb' 0 4 = a
    generalize (payload (reduceThrottle thr)).extractLsb' 4 4 = b
    generalize (payload (reduceThrottle thr)).extractLsb' 8 4 = c
    rw [show c ^^^ b ^^^ a = a ^^^ b ^^^ c by ac_rfl, BitVec.xor_self]; rfl

/-! ### The halves of a level-multiplex word (41_waveform_table.md R110 to R112) -/

theorem setHalf_not (w : Entry) : setHalf (~~~w) = ~~~setHalf w := by
  refine BitVec.eq_of_getLsbD_eq fun i hi => ?_
  simp [setHalf, hi, show i < 32 by omega]

theorem clrHalf_not (w : Entry) : clrHalf (~~~w) = ~~~clrHalf w := by
  refine BitVec.eq_of_getLsbD_eq fun i hi => ?_
  simp [clrHalf, hi, show 16 + i < 32 by omega]

@[simp] theorem setHalf_setBits (m : Half) : setHalf (setBits m) = m := by
  refine BitVec.eq_of_getLsbD_eq fun i hi => ?_
  simp [setHalf, setBits, hi, show i < 32 by omega]

@[simp] theorem setHalf_clrBits (m : Half) : setHalf (clrBits m) = 0 := by
  refine BitVec.eq_of_getLsbD_eq fun i hi => ?_
  simp [setHalf, clrBits, hi]

@[simp] theorem clrHalf_setBits (m : Half) : clrHalf (setBits m) = 0 := by
  refine BitVec.eq_of_getLsbD_eq fun i hi => ?_
  simp [clrHalf, setBits]

@[simp] theorem clrHalf_clrBits (m : Half) : clrHalf (clrBits m) = m := by
  refine BitVec.eq_of_getLsbD_eq fun i hi => ?_
  simp [clrHalf, clrBits, hi, show 16 + i < 32 by omega]

theorem setHalf_levelWord (p : Params) (m : Half) (f : Frame) (i : Nat) (old : Entry) :
    setHalf (levelWord p m f i old) =
      (setHalf old &&& ~~~m) |||
        (if i % slotsPerBit = riseSlot p (protocolBit f (i / slotsPerBit)) then m else 0) := by
  have hor (a b : Entry) : setHalf (a ||| b) = setHalf a ||| setHalf b := BitVec.extractLsb'_or
  have hand (a b : Entry) : setHalf (a &&& b) = setHalf a &&& setHalf b := BitVec.extractLsb'_and
  simp only [levelWord, channelBits]
  split_ifs <;> simp [hor, hand, setHalf_not]

theorem clrHalf_levelWord (p : Params) (m : Half) (f : Frame) (i : Nat) (old : Entry) :
    clrHalf (levelWord p m f i old) =
      (clrHalf old &&& ~~~m) |||
        (if i % slotsPerBit = fallSlot p (protocolBit f (i / slotsPerBit)) then m else 0) := by
  have hor (a b : Entry) : clrHalf (a ||| b) = clrHalf a ||| clrHalf b := BitVec.extractLsb'_or
  have hand (a b : Entry) : clrHalf (a &&& b) = clrHalf a &&& clrHalf b := BitVec.extractLsb'_and
  simp only [levelWord, channelBits]
  split_ifs <;> simp [hor, hand, clrHalf_not]

theorem riseSlot_ne_fallSlot {p : Params} (h : p.edgesWf) (v : Bool) : riseSlot p v ≠ fallSlot p v := by
  cases v <;> simp only [riseSlot, fallSlot] <;> simp <;> omega

/-- One line of a word `(s, c)` whose channel bit `m` is replaced by `a` in SET and by `b` in CLR, inside the enabled bit `e`. -/
theorem replaced_bit_ok : ∀ s c m e a b : Bool, (s && c) = false → ((s || c) && !e) = false → (m && !e) = false →
    (a && b) = false → (a && !m) = false → (b && !m) = false →
    ((s && !m || a) && (c && !m || b)) = false ∧ ((s && !m || a || (c && !m || b)) && !e) = false := by
  decide

theorem getLsbD_eq_false_of_eq_zero {m : Half} (h : m = 0) (j : Nat) : m.getLsbD j = false := by
  rw [h]; exact BitVec.getLsbD_zero

theorem replaced_halves_ok {s c m e a b : Half} (hdis : s &&& c = 0) (hin : (s ||| c) &&& ~~~e = 0)
    (hm : m &&& ~~~e = 0) (hab : a &&& b = 0) (ha : a &&& ~~~m = 0) (hb : b &&& ~~~m = 0) :
    (s &&& ~~~m ||| a) &&& (c &&& ~~~m ||| b) = 0 ∧ (s &&& ~~~m ||| a ||| (c &&& ~~~m ||| b)) &&& ~~~e = 0 := by
  have hbit (j : Nat) (hj : j < 16) := replaced_bit_ok (s.getLsbD j) (c.getLsbD j) (m.getLsbD j) (e.getLsbD j)
    (a.getLsbD j) (b.getLsbD j) (by simpa using getLsbD_eq_false_of_eq_zero hdis j)
    (by simpa [hj] using getLsbD_eq_false_of_eq_zero hin j) (by simpa [hj] using getLsbD_eq_false_of_eq_zero hm j)
    (by simpa using getLsbD_eq_false_of_eq_zero hab j) (by simpa [hj] using getLsbD_eq_false_of_eq_zero ha j)
    (by simpa [hj] using getLsbD_eq_false_of_eq_zero hb j)
  constructor <;> refine BitVec.eq_of_getLsbD_eq fun j hj => ?_
  · simpa [hj] using (hbit j hj).1
  · simpa [hj] using (hbit j hj).2

/-- The write of a level-multiplex LOAD keeps the halves of a word disjoint and inside ENMASK, since a line rises and falls at
different sub-slots (10_state.md R33 (f)). -/
theorem levelWord_halves {p : Params} (hp : p.edgesWf) {m e : Half} (hm : m &&& ~~~e = 0) (f : Frame) (i : Nat)
    {old : Entry} (hdis : setHalf old &&& clrHalf old = 0) (hin : (setHalf old ||| clrHalf old) &&& ~~~e = 0) :
    setHalf (levelWord p m f i old) &&& clrHalf (levelWord p m f i old) = 0 ∧
      (setHalf (levelWord p m f i old) ||| clrHalf (levelWord p m f i old)) &&& ~~~e = 0 := by
  have hne := riseSlot_ne_fallSlot hp (protocolBit f (i / slotsPerBit))
  rw [setHalf_levelWord, clrHalf_levelWord]
  refine replaced_halves_ok hdis hin hm ?_ ?_ ?_
  · split_ifs with hr hf
    · exact absurd (hr.symm.trans hf) hne
    all_goals simp
  all_goals split_ifs <;> simp

/-! ### The invariant of the reachable states (10_state.md R33), operation by operation -/

-- The invariant reads no port, no response, no observation and no move.

theorem BlockInv.quiet {s : State} (h : BlockInv s) : BlockInv s.quiet := h
theorem BlockInv.taking {s : State} (h : BlockInv s) (rest : List Move) : BlockInv (s.taking rest) := h
theorem BlockInv.respond {s : State} (h : BlockInv s) (st : Status) (f : Frame) : BlockInv (respond st f s) := h
theorem BlockInv.takeSample {s : State} (h : BlockInv s) : BlockInv (takeSample s) := h
theorem BlockInv.driveConfigPorts {s : State} (h : BlockInv s) (q : CfgPorts) : BlockInv (driveConfigPorts q s) := h

/-- The reset state has the invariant, whatever the ports, the observation and the moves are. -/
theorem blockInv_resetOf {p : Params} (h : p.wf) : BlockInv (State.resetOf p) := by
  refine ⟨h, ⟨le_rfl, .inl rfl⟩, fun hr => absurd rfl hr, fun _ => ⟨rfl, rfl, rfl, rfl⟩, ⟨Memory.nil_wf, by simp⟩,
    fun _ => by simp, fun _ => by simp, by simp, by simp, fun c _ => by simp⟩

theorem BlockInv.assertReset {s : State} (h : BlockInv s) : BlockInv (assertReset s) := blockInv_resetOf h.1

/-- The configuration an accepted INIT latches is a legal one (43_init.md R151, R152). -/
theorem latchConfig_configInv {s : State} (hv : cfgValid s.par s.ports = true) : ConfigInv (latchConfig s) := by
  refine fun _ => ⟨speed_ne_of_cfgValid hv, fun hs a ha hea => ?_⟩
  rw [latchConfig_par] at hs
  have hmasks := (masksValid_iff _ _).1 (masksValid_of_cfgValid hv hs)
  have hmask {c : Channel} (hc : enabled s.par (latchedCfg s.par s.ports s.cfg) c = true) :
      (latchedCfg s.par s.ports s.cfg).maskOf c = s.ports.maskOf c := by
    rw [latchedCfg_maskOf_levelMux hs, if_pos (lt_nch_of_enabled hc)]
  obtain ⟨hne, hdis⟩ := hmasks a ha (enabled_latchedCfg s.par s.ports s.cfg a ▸ hea)
  rw [latchConfig_cfg, hmask hea]
  refine ⟨hne, fun b hb heb hab => ?_⟩
  rw [hmask heb]
  exact hdis b hb (enabled_latchedCfg s.par s.ports s.cfg b ▸ heb) hab

theorem latchConfig_unusedChannelInv {s : State} (h : UnusedChannelInv s) : UnusedChannelInv (latchConfig s) := by
  intro c hc
  obtain ⟨habsent, hduty⟩ := h c hc
  rw [latchConfig_par, latchConfig_cfg]
  refine ⟨fun hn => ?_, fun hs => ?_⟩
  · obtain ⟨hen, hdst, hmask⟩ := habsent hn
    have hn' : ¬c.toNat < s.par.nch := Nat.not_lt.2 hn
    refine ⟨?_, ?_, ?_⟩
    · rw [latchedCfg_enOf, if_neg hn', hen]
    · rw [latchedCfg_dstOf, if_neg hn', hdst]
    · cases hs : s.par.strategy
      · rw [latchedCfg_maskOf_duty hs, hmask]
      · rw [latchedCfg_maskOf_levelMux hs, if_neg hn', hmask]
  · rw [latchedCfg_maskOf_duty hs]
    exact hduty hs

/-- An accepted INIT finds REM = 0 and no LOAD in progress (10_state.md R33 (c)), and leaves all tables zero. -/
theorem BlockInv.latchConfig {s : State} (h : BlockInv s) (hi : s.inited = false)
    (hv : cfgValid s.par s.ports = true) : BlockInv (latchConfig s) := by
  obtain ⟨hpar, hcount, -, huninit, -, -, -, -, -, hunused⟩ := h
  obtain ⟨-, hrem, hld, -⟩ := huninit hi
  exact ⟨hpar, hcount, fun hr => absurd hrem hr, by simp, ⟨Memory.nil_wf, by simp⟩, fun _ => by simp, fun _ => by simp,
    fun ha => by simp [hld] at ha, latchConfig_configInv hv, latchConfig_unusedChannelInv hunused⟩

theorem BlockInv.beginLoad {s : State} (h : BlockInv s) {ch : Channel} (thr : Throttle) (hi : s.inited = true)
    (he : enabled s.par s.cfg ch = true) : BlockInv (beginLoad ch (encodeFrame thr) s) := by
  obtain ⟨hpar, hcount, htransfer, -, htable, hduty, hlevel, -, hconfig, hunused⟩ := h
  exact ⟨hpar, hcount, htransfer, fun hn => by simp [hi] at hn, htable, hduty, hlevel,
    fun _ => ⟨hi, he, Nat.zero_le _, validFrame_encodeFrame thr⟩, hconfig, hunused⟩

/-- SEND binds the table and the destination of an enabled channel, and the count starts at LEN (42_admission.md R131). -/
theorem BlockInv.startTransfer {s : State} (h : BlockInv s) {ch : Channel} (hi : s.inited = true)
    (he : enabled s.par s.cfg ch = true) : BlockInv (startTransfer ch s) := by
  obtain ⟨hpar, -, -, -, htable, hduty, hlevel, hload, hconfig, hunused⟩ := h
  have ⟨_, hgap, _⟩ := hpar
  have hlen := toNat_ofNat_tableLen hgap
  exact ⟨hpar, ⟨le_rfl, .inr hlen⟩,
    fun _ => ⟨rfl, hi, hlen, ch, mem_allChannels ch, he, toNat_ofNat_tableOf _ _, rfl⟩,
    fun hn => by simp [hi] at hn, htable, hduty, hlevel, hload, hconfig, hunused⟩

theorem BlockInv.finishLoad {s : State} (h : BlockInv s) (ha : s.ldActive = true) : BlockInv (finishLoad s) := by
  obtain ⟨hpar, hcount, htransfer, huninit, htable, hduty, hlevel, hload, hconfig, hunused⟩ := h
  obtain ⟨hi, -, -, -⟩ := hload ha
  exact ⟨hpar, hcount, htransfer, fun hn => by simp [hi] at hn, htable, hduty, hlevel, fun hn => by simp at hn,
    hconfig, hunused⟩

/-- A DRAIN lowers the count and leaves the binding (42_admission.md R135). -/
theorem BlockInv.drained {s : State} (h : BlockInv s) (hr : s.rem ≠ 0) (d : Dest) (v : Entry) :
    BlockInv { emit d v s with rem := s.rem - 1 } := by
  obtain ⟨hpar, ⟨hle, hlen⟩, htransfer, huninit, htable, hduty, hlevel, hload, hconfig, hunused⟩ := h
  have hlt : (s.rem - 1).toNat ≤ s.rem.toNat := by bv_omega
  obtain ⟨-, hi, -⟩ := htransfer hr
  exact ⟨hpar, ⟨hlt.trans hle, hlen⟩, fun _ => htransfer hr, fun hn => by simp [hi] at hn, htable, hduty, hlevel,
    hload, hconfig, hunused⟩

/-! ### The entry write of a LOAD -/

/-- What holds of every cell and of the written entry holds of every cell after the write. -/
theorem forall_mem_loadWrite {p : Params} {g : CfgRecord} {c : Channel} {f : Frame} {m : Memory} {i : Nat}
    {P : TableCell → Prop} (hm : ∀ d ∈ m, P d)
    (hw : P (⟨tableOf p c, i⟩, loadedEntry p g c f i (m.get ⟨tableOf p c, i⟩))) :
    ∀ d ∈ loadWrite p g c f m i, P d := by
  intro d hd
  rcases Memory.mem_put hd with hd | ⟨rfl, -⟩
  · exact hm d hd
  · exact hw

theorem Memory.get_eq_zero_or_mem (m : Memory) (a : Addr) : m.get a = 0 ∨ (a, m.get a) ∈ m :=
  or_iff_not_imp_left.2 Memory.mem_of_get_ne_zero

theorem loadedEntry_duty {p : Params} (hs : p.strategy = .duty) (g : CfgRecord) (c : Channel) (f : Frame) (i : Nat)
    (old : Entry) :
    loadedEntry p g c f i old = (calOf p g.speed).1.setWidth 32 ∨
      loadedEntry p g c f i old = (calOf p g.speed).2.setWidth 32 := by
  cases hb : protocolBit f i <;> simp [loadedEntry, dutyEntry, hs, hb]

theorem loadedEntry_levelMux {p : Params} (hs : p.strategy = .levelMux) (g : CfgRecord) (c : Channel) (f : Frame)
    (i : Nat) (old : Entry) : loadedEntry p g c f i old = levelWord p (g.maskOf c) f i old := by
  simp [loadedEntry, hs]

/-- R33 (f) of the memory, read at an address: an unlisted entry is 0. -/
theorem LevelInv.get {s : State} (h : LevelInv s) (hs : s.par.strategy = .levelMux) (a : Addr) :
    setHalf (s.tbl.get a) &&& clrHalf (s.tbl.get a) = 0 ∧
      (setHalf (s.tbl.get a) ||| clrHalf (s.tbl.get a)) &&& ~~~enMask s.par s.cfg = 0 := by
  rcases Memory.get_eq_zero_or_mem s.tbl a with h0 | hmem
  · rw [h0]; simp [setHalf, clrHalf]
  · exact h hs (a, s.tbl.get a) hmem

theorem DutyInv.get {s : State} (h : DutyInv s) (hs : s.par.strategy = .duty) (a : Addr) :
    s.tbl.get a = 0 ∨ s.tbl.get a = (calOf s.par s.cfg.speed).1.setWidth 32 ∨
      s.tbl.get a = (calOf s.par s.cfg.speed).2.setWidth 32 :=
  (Memory.get_eq_zero_or_mem s.tbl a).imp_right fun hmem => h hs (a, s.tbl.get a) hmem

/-- The entries that no LOAD writes, the gap among them, are 0 (10_state.md R33 (d)). -/
theorem TableInv.get_eq_zero {s : State} (h : TableInv s) {t i : Nat} (hi : loadWrites s.par ≤ i) :
    s.tbl.get ⟨t, i⟩ = 0 := by
  obtain ⟨-, hcells⟩ := h
  rcases Memory.get_eq_zero_or_mem s.tbl ⟨t, i⟩ with h0 | hmem
  · exact h0
  · exact absurd (hcells _ hmem).2 (Nat.not_lt.2 hi)

/-- A micro-step writes one entry of the channel's own table, with a value the strategy allows (41_waveform_table.md R116). -/
theorem BlockInv.loadWritten {s : State} (h : BlockInv s) (ha : s.ldActive = true)
    (hk : s.ldIdx.toNat < loadWrites s.par) :
    BlockInv { s with
      tbl := loadWrite s.par s.cfg s.ldCh s.ldFrame s.tbl s.ldIdx.toNat, ldIdx := s.ldIdx + 1 } := by
  obtain ⟨hpar, hcount, htransfer, -, ⟨hwf, hcells⟩, hduty, hlevel, hload, hconfig, hunused⟩ := h
  obtain ⟨hi, he, -, hframe⟩ := hload ha
  have ⟨_, _, _, hedges, _⟩ := hpar
  have hK := loadWrites_le s.par
  have hidx : (s.ldIdx + 1).toNat ≤ loadWrites s.par := by bv_omega
  refine ⟨hpar, hcount, htransfer, fun hn => by simp [hi] at hn, ⟨Memory.put_wf hwf _ _, ?_⟩, fun hs => ?_, fun hs => ?_,
    fun _ => ⟨hi, he, hidx, hframe⟩, hconfig, hunused⟩
  · exact forall_mem_loadWrite hcells ⟨tableOf_lt_tableCount he, hk⟩
  · exact forall_mem_loadWrite (hduty hs) (loadedEntry_duty hs _ _ _ _ _)
  · obtain ⟨hdis, hin⟩ := LevelInv.get hlevel hs ⟨tableOf s.par s.ldCh, s.ldIdx.toNat⟩
    refine forall_mem_loadWrite (hlevel hs) ?_
    rw [loadedEntry_levelMux hs]
    exact levelWord_halves hedges (maskOf_and_not_enMask he) _ _ hdis hin

/-! ### Every step -/

theorem loadStep_keeps_blockInv {s t : State} (hs : BlockInv s) (h : loadStep s = .next t) : BlockInv t := by
  rcases loadStep_cases h with ⟨-, rfl⟩ | ⟨ha, hk, rfl⟩ | ⟨ha, -, rfl⟩
  · exact hs
  · exact hs.loadWritten ha hk
  · exact hs.finishLoad ha

theorem drainStep_keeps_blockInv {s t : State} (hs : BlockInv s) (h : drainStep s = .next t) : BlockInv t := by
  rcases drainStep_cases h with ⟨-, rfl⟩ | ⟨-, hr, rfl⟩
  · exact hs
  · exact hs.drained hr _ _

theorem acceptCommand_keeps_blockInv {w : Word} {s t : State} (hs : BlockInv s) (h : acceptCommand w s = .next t) :
    BlockInv t := by
  rcases acceptCommand_cases w s with
      ⟨st, -, e⟩ | ⟨thr, -, e⟩ | ⟨-, hi, hv, e⟩ | ⟨ch, thr, -, hi, he, e⟩ | ⟨ch, -, hi, he, -, e⟩ <;>
    rw [e] at h <;> cases h
  · exact hs.respond _ _
  · exact hs.respond _ _
  · exact (hs.latchConfig hi hv).respond _ _
  · exact hs.beginLoad thr hi he
  · exact (hs.startTransfer hi he).respond _ _

theorem step_keeps_blockInv {s t : State} (hs : BlockInv s) (h : step s = .next t) : BlockInv t := by
  rcases step_cases s with ⟨-, -, e⟩ | ⟨-, -, e⟩ | ⟨w, rest, -, -, e⟩ | ⟨w, rest, -, -, e⟩ | ⟨rest, -, e⟩ |
      ⟨rest, -, e⟩ | ⟨q, rest, -, e⟩ | ⟨rest, -, e⟩ | ⟨rest, -, e⟩ <;> rw [e] at h
  · exact loadStep_keeps_blockInv hs.quiet h
  · exact drainStep_keeps_blockInv hs.quiet h
  · exact acceptCommand_keeps_blockInv (hs.quiet.taking rest) h
  · exact loadStep_keeps_blockInv hs.quiet h
  · exact loadStep_keeps_blockInv (hs.quiet.taking rest) h
  · exact drainStep_keeps_blockInv (hs.quiet.taking rest) h
  · cases h; exact (hs.quiet.taking rest).driveConfigPorts q
  · cases h; exact (hs.quiet.taking rest).takeSample
  · cases h; exact (hs.quiet.taking rest).assertReset

/-! ### Runs -/

/-- What every step keeps holds at the end of a run from a state that has it. -/
theorem runSteps_keeps {P : State → Prop} (hstep : ∀ s t, P s → step s = .next t → P t) {n : Nat} {s t : State}
    (hs : P s) (h : runSteps n s = .next t) : P t := by
  induction n generalizing s with
  | zero => cases h; exact hs
  | succ n ih =>
    cases hu : step s with
    | next u => exact ih (hstep s u hs hu) (runSteps_succ hu n ▸ h)
    | fault e => simp [runSteps, hu] at h
    | refused r => simp [runSteps, hu] at h

theorem runSteps_par {n : Nat} {s t : State} (h : runSteps n s = .next t) : t.par = s.par :=
  runSteps_keeps (P := fun u => u.par = s.par) (fun _ _ hu e => (step_par e).trans hu) rfl h

/-- R33 holds in every state reachable from reset, whatever the ports and the moves are. -/
theorem reachable_blockInv {p : Params} {q : CfgPorts} {ms : List Move} {n : Nat} {s : State} (hp : p.wf)
    (h : runSteps n { State.resetOf p with ports := q, moves := ms } = .next s) : BlockInv s :=
  have hreset : BlockInv { State.resetOf p with ports := q, moves := ms } := blockInv_resetOf hp
  runSteps_keeps (fun _ _ => step_keeps_blockInv) hreset h

theorem CountInv.orLen_le {s : State} (h : CountInv s) : s.orLen.toNat ≤ tableLen s.par := by
  obtain ⟨-, h0 | hlen⟩ := h
  · simp [h0]
  · exact hlen.le

/-! ### The statements -/

/-- Settles O51: the step is `assertReset`, whose fields are the reset values, and `step_clears_inited` is the rest. -/
theorem resetClearsEverything : Obligations.ResetClearsEverything := by
  refine ⟨fun s rest hm => ⟨_, step_assertReset hm, ?_⟩, fun s t h hs ht => step_clears_inited h hs ht⟩
  simp [State.busy, State.outputs]

/-- Settles O19: what a step does to INITED is `step_frame`; that an INIT is accepted and that LOAD and SEND are
rejected before one are the branches of their meanings. -/
theorem onlyInitSetsInited : Obligations.OnlyInitSetsInited := by
  refine ⟨fun s t h hs ht => ?_, fun s t h hs ht => step_clears_inited h hs ht,
    fun s rest hm => ⟨_, step_assertReset hm, rfl⟩, fun s hi ha hv rest hm => ?_, fun s hi ch thr => ?_⟩
  · obtain ⟨hcases, -⟩ := step_frame h
    rcases hcases with hk | ⟨-, hset⟩ | ⟨hk, -⟩
    · simp [hs, ht] at hk
    · exact hset
    · simp [ht] at hk
  · have hdec : decode 0x10000000#32 = .ok .init := (decode_eq_init_iff _).2 rfl
    exact ⟨_, by rw [step_command hm ha, acceptCommand_legal hdec]; exact execInit_accepts hi hv, rfl⟩
  · exact ⟨execLoad_uninitialised hi ch thr, execSend_uninitialised hi ch⟩

/-- Settles O48: the run keeps `BlockInv` and the parameters, and each clause is one of its parts, read at an address. -/
theorem reachableStatesHaveTheirInvariants : Obligations.ReachableStatesHaveTheirInvariants := by
  intro p q ms n s hp hrun
  obtain ⟨-, hcount, htransfer, huninit, htable, hduty, hlevel, hload, -, -⟩ := reachable_blockInv hp hrun
  obtain rfl : s.par = p := runSteps_par hrun
  refine ⟨⟨hcount.1, hcount.orLen_le, hcount.2⟩, fun hr => ?_, fun hi => ?_, fun t i hi => htable.get_eq_zero hi,
    fun hs c i => DutyInv.get hduty hs ⟨c, i⟩, fun hs i => LevelInv.get hlevel hs ⟨0, i⟩, fun ha => ?_⟩
  · obtain ⟨hen, hinit, hlen, c, -, he, hsrc, -⟩ := htransfer hr
    exact ⟨hen, hinit, hlen, hsrc ▸ tableOf_lt_tableCount he⟩
  · obtain ⟨htbl, hrem, -, -⟩ := huninit hi
    exact ⟨fun a => by rw [htbl, Memory.get_nil], hrem⟩
  · obtain ⟨hinit, he, -, -⟩ := hload ha
    exact ⟨hinit, he⟩

end Sys2Proof.Machine

/-! SUPPORT. The proofs about 20_memory.md: every computed index is in range (R44), and a LOAD touches no line of another channel
in the shared table (R51). -/

namespace Sys2Proof.Machine

/-! ### The computed indices (20_memory.md R44) -/

/-- The gap is not empty: every entry a LOAD writes lies before the end of the table (00_scope.md R8 GAP, R9). -/
theorem loadWrites_lt_tableLen {p : Params} (h : p.gapWf) : loadWrites p < tableLen p := by
  cases hs : p.strategy <;> simp only [loadWrites, tableLen, hs, packetBits, slotsPerBit] <;> omega

/-- A LOAD in progress is of an enabled channel, whose table has an entry for each of the K writes. -/
theorem BlockInv.loadEntry_exists {s : State} (h : BlockInv s) (ha : s.ldActive = true)
    (hk : s.ldIdx.toNat < loadWrites s.par) : EntryExists s.par (tableOf s.par s.ldCh) s.ldIdx.toNat := by
  obtain ⟨⟨-, hgap, -⟩, -, -, -, -, -, -, hload, -, -⟩ := h
  obtain ⟨-, he, -, -⟩ := hload ha
  exact ⟨tableOf_lt_tableCount he, hk.trans (loadWrites_lt_tableLen hgap)⟩

/-- A transfer in flight has between 1 and LEN entries left (10_state.md R33 (a), (b)). -/
theorem BlockInv.rem_range {s : State} (h : BlockInv s) (hr : s.rem ≠ 0) :
    1 ≤ s.rem.toNat ∧ s.rem.toNat ≤ s.orLen.toNat ∧ s.orLen.toNat = tableLen s.par := by
  obtain ⟨-, ⟨hle, -⟩, htransfer, -, -, -, -, -, -, -⟩ := h
  obtain ⟨-, -, hlen, -⟩ := htransfer hr
  exact ⟨by bv_omega, hle, hlen⟩

/-- A transfer in flight reads the table of an enabled channel, at an index below LEN since REM is not 0. -/
theorem BlockInv.drainEntry_exists {s : State} (h : BlockInv s) (hr : s.rem ≠ 0) :
    EntryExists s.par s.orSrc.toNat (s.orLen.toNat - s.rem.toNat) := by
  obtain ⟨hpos, hle, hlen⟩ := h.rem_range hr
  obtain ⟨-, -, htransfer, -, -, -, -, -, -, -⟩ := h
  obtain ⟨-, -, -, c, -, he, hsrc, -⟩ := htransfer hr
  exact ⟨hsrc ▸ tableOf_lt_tableCount he, by omega⟩

/-! ### The bits of a channel in a level-multiplex word (20_memory.md R42; 41_waveform_table.md R110) -/

@[simp] theorem setHalf_or (a b : Entry) : setHalf (a ||| b) = setHalf a ||| setHalf b := BitVec.extractLsb'_or

@[simp] theorem clrHalf_or (a b : Entry) : clrHalf (a ||| b) = clrHalf a ||| clrHalf b := BitVec.extractLsb'_or

@[simp] theorem setHalf_and (a b : Entry) : setHalf (a &&& b) = setHalf a &&& setHalf b := BitVec.extractLsb'_and

@[simp] theorem clrHalf_and (a b : Entry) : clrHalf (a &&& b) = clrHalf a &&& clrHalf b := BitVec.extractLsb'_and

@[simp] theorem setHalf_zero : setHalf 0#32 = 0#16 := rfl

@[simp] theorem clrHalf_zero : clrHalf 0#32 = 0#16 := rfl

/-- A word is its two halves (20_memory.md R42). -/
theorem entry_eq_of_halves_eq {a b : Entry} (hset : setHalf a = setHalf b) (hclr : clrHalf a = clrHalf b) : a = b := by
  have happend (w : Entry) : clrHalf w ++ setHalf w = w := BitVec.extractLsb'_append_extractLsb' (w := 16)
  rw [← happend a, ← happend b, hset, hclr]

@[simp] theorem setHalf_channelBits (m : Half) : setHalf (channelBits m) = m := by simp [channelBits]

@[simp] theorem clrHalf_channelBits (m : Half) : clrHalf (channelBits m) = m := by simp [channelBits]

/-- Channels with disjoint masks have disjoint bits in both halves. -/
theorem channelBits_and_channelBits {m k : Half} (h : m &&& k = 0) : channelBits m &&& channelBits k = 0 :=
  entry_eq_of_halves_eq (by simpa using h) (by simpa using h)

theorem setBits_and_not_channelBits (m : Half) : setBits m &&& ~~~channelBits m = 0 :=
  entry_eq_of_halves_eq (by simp [setHalf_not]) (by simp)

theorem clrBits_and_not_channelBits (m : Half) : clrBits m &&& ~~~channelBits m = 0 :=
  entry_eq_of_halves_eq (by simp) (by simp [clrHalf_not])

/-- Bits put in inside a mask do not show outside it. -/
theorem or_and_not_of_and_not_eq_zero {w x m : Entry} (hx : x &&& ~~~m = 0) : (w ||| x) &&& ~~~m = w &&& ~~~m := by
  simp [BitVec.and_or_distrib_right, hx]

/-- Words that agree outside a mask agree on every mask disjoint from it. -/
theorem and_eq_and_of_and_not_eq {x y m k : Entry} (h : x &&& ~~~m = y &&& ~~~m) (hd : m &&& k = 0) :
    x &&& k = y &&& k := by
  have hk : ~~~m &&& k = k := by
    calc ~~~m &&& k = m &&& k ||| ~~~m &&& k := by simp [hd]
      _ = (m ||| ~~~m) &&& k := BitVec.and_or_distrib_right.symm
      _ = k := by rw [BitVec.or_not_self, BitVec.allOnes_and]
  calc x &&& k = x &&& ~~~m &&& k := by rw [BitVec.and_assoc, hk]
    _ = y &&& ~~~m &&& k := by rw [h]
    _ = y &&& k := by rw [BitVec.and_assoc, hk]

/-! ### Disjointness across channels in the shared table (20_memory.md R51) -/

/-- A level-multiplex write changes no bit outside the channel's mask: it drops the channel's bits and puts in only such
bits, whichever sub-slot the word is (41_waveform_table.md R110). -/
theorem levelWord_and_not_channelBits (p : Params) (m : Half) (f : Frame) (i : Nat) (old : Entry) :
    levelWord p m f i old &&& ~~~channelBits m = old &&& ~~~channelBits m := by
  have hkept : old &&& ~~~channelBits m &&& ~~~channelBits m = old &&& ~~~channelBits m := by
    rw [BitVec.and_assoc, BitVec.and_self]
  have hset := setBits_and_not_channelBits m
  have hclr := clrBits_and_not_channelBits m
  simp only [levelWord]
  split_ifs <;> simp only [or_and_not_of_and_not_eq_zero hset, or_and_not_of_and_not_eq_zero hclr, hkept]

/-- A whole level-multiplex LOAD changes no bit outside the channel's mask, in any entry. -/
theorem loadTable_and_not_channelBits {p : Params} (hs : p.strategy = .levelMux) (g : CfgRecord) (c : Channel)
    (f : Frame) {m : Memory} (hm : m.wf) (x : Addr) :
    (loadTable p g c f m).get x &&& ~~~channelBits (g.maskOf c) = m.get x &&& ~~~channelBits (g.maskOf c) := by
  rw [get_loadTable p g c f hm]
  split_ifs
  · rw [loadedEntry_levelMux hs, levelWord_and_not_channelBits]
  · rfl

/-- Two enabled channels of the level-multiplex strategy have disjoint masks (10_state.md R23). -/
theorem ConfigInv.masks_disjoint {s : State} (h : ConfigInv s) (hi : s.inited = true)
    (hs : s.par.strategy = .levelMux) {a b : Channel} (ha : enabled s.par s.cfg a = true)
    (hb : enabled s.par s.cfg b = true) (hab : a ≠ b) : s.cfg.maskOf a &&& s.cfg.maskOf b = 0 := by
  obtain ⟨-, hmasks⟩ := h hi
  obtain ⟨-, hdis⟩ := hmasks hs a (mem_allChannels a) ha
  exact hdis b (mem_allChannels b) hb hab

/-! ### The statements -/

/-- Settles O49: the three groups of indices, each in range by the parts of `BlockInv` about a LOAD, a transfer and the enabled
channels. -/
theorem indicesAreInRange : Obligations.IndicesAreInRange := by
  refine fun s h => ⟨h.loadEntry_exists, fun hr => ?_, fun c => tableOf_lt_tableCount⟩
  obtain ⟨hpos, hle, hlen⟩ := h.rem_range hr
  exact ⟨hpos, hle, hlen, h.drainEntry_exists hr⟩

/-- Settles O26: a LOAD changes nothing outside its channel's mask, and another enabled channel's mask lies outside it. -/
theorem otherChannelsKeepTheirBits : Obligations.OtherChannelsKeepTheirBits := by
  intro s a b thr h hs hi ha hb hab x
  obtain ⟨-, -, -, -, ⟨hwf, -⟩, -, -, -, hconfig, -⟩ := h
  have houtside := loadTable_and_not_channelBits hs s.cfg a (encodeFrame thr) hwf x
  have hdis := channelBits_and_channelBits (ConfigInv.masks_disjoint hconfig hi hs ha hb hab)
  exact ⟨and_eq_and_of_and_not_eq houtside hdis, houtside⟩

end Sys2Proof.Machine

/-! SUPPORT. The proofs about 30_encoding.md: the command map (R63, R65), and the answer to a word that matches no row (R64). -/

namespace Sys2Proof

/-! ### A command word and its fields (30_encoding.md R61) -/

/-- A word is determined by its four fields. -/
theorem word_eq_iff_fields {w v : Word} :
    w = v ↔ fieldOp w = fieldOp v ∧ fieldCh w = fieldCh v ∧ fieldZ w = fieldZ v ∧ fieldThr w = fieldThr v := by
  constructor
  · rintro rfl; exact ⟨rfl, rfl, rfl, rfl⟩
  · rintro ⟨hop, hch, hz, hthr⟩
    rw [word_eq_fields w, word_eq_fields v, hop, hch, hz, hthr]

theorem eq_commandWord_iff {w : Word} {op : BitVec 4} {ch : Channel} {thr : Throttle} :
    w = commandWord op ch thr ↔ fieldOp w = op ∧ fieldCh w = ch ∧ fieldZ w = 0 ∧ fieldThr w = thr := by
  simp [word_eq_iff_fields]

/-- A mask acts on each field by itself. -/
theorem and_eq_iff_fields {w m v : Word} :
    w &&& m = v ↔ fieldOp w &&& fieldOp m = fieldOp v ∧ fieldCh w &&& fieldCh m = fieldCh v ∧
      fieldZ w &&& fieldZ m = fieldZ v ∧ fieldThr w &&& fieldThr m = fieldThr v := by
  simp only [word_eq_iff_fields, fieldOp, fieldCh, fieldZ, fieldThr, BitVec.extractLsb'_and]

/-! ### The rows of the command map, field by field (30_encoding.md R63)

Every mask keeps the whole of a field or none of it: OP and Z always, CH and THR where the row says "must be 0". -/

theorem matches_init_iff (w : Word) : w &&& 0xFFFFFFFF#32 = 0x10000000#32 ↔
    fieldOp w = 1#4 ∧ fieldCh w = 0 ∧ fieldZ w = 0 ∧ fieldThr w = 0 := by
  rw [and_eq_iff_fields]
  change fieldOp w &&& BitVec.allOnes 4 = 1#4 ∧ fieldCh w &&& BitVec.allOnes 4 = 0 ∧
    fieldZ w &&& BitVec.allOnes 8 = 0 ∧ fieldThr w &&& BitVec.allOnes 16 = 0 ↔ _
  simp only [BitVec.and_allOnes]

theorem matches_encode_iff (w : Word) : w &&& 0xFFFF0000#32 = 0x20000000#32 ↔
    fieldOp w = 2#4 ∧ fieldCh w = 0 ∧ fieldZ w = 0 := by
  rw [and_eq_iff_fields]
  change fieldOp w &&& BitVec.allOnes 4 = 2#4 ∧ fieldCh w &&& BitVec.allOnes 4 = 0 ∧
    fieldZ w &&& BitVec.allOnes 8 = 0 ∧ fieldThr w &&& 0#16 = 0#16 ↔ _
  simp only [BitVec.and_allOnes, BitVec.and_zero, and_true]

theorem matches_load_iff (w : Word) : w &&& 0xF0FF0000#32 = 0x30000000#32 ↔
    fieldOp w = 3#4 ∧ fieldZ w = 0 := by
  rw [and_eq_iff_fields]
  change fieldOp w &&& BitVec.allOnes 4 = 3#4 ∧ fieldCh w &&& 0#4 = 0#4 ∧
    fieldZ w &&& BitVec.allOnes 8 = 0 ∧ fieldThr w &&& 0#16 = 0#16 ↔ _
  simp only [BitVec.and_allOnes, BitVec.and_zero, and_true, true_and]

theorem matches_send_iff (w : Word) : w &&& 0xF0FFFFFF#32 = 0x40000000#32 ↔
    fieldOp w = 4#4 ∧ fieldZ w = 0 ∧ fieldThr w = 0 := by
  rw [and_eq_iff_fields]
  change fieldOp w &&& BitVec.allOnes 4 = 4#4 ∧ fieldCh w &&& 0#4 = 0#4 ∧
    fieldZ w &&& BitVec.allOnes 8 = 0 ∧ fieldThr w &&& BitVec.allOnes 16 = 0 ↔ _
  simp only [BitVec.and_allOnes, BitVec.and_zero, true_and]

/-! ### The decoder (30_encoding.md R65) -/

theorem decodeInit_eq_ok_iff {ch : Channel} {thr : Throttle} {i : Instr} :
    decodeInit ch thr = .ok i ↔ .init = i ∧ ch = 0 ∧ thr = 0 := by
  unfold decodeInit; split_ifs <;> simp_all

theorem decodeEncode_eq_ok_iff {ch : Channel} {thr : Throttle} {i : Instr} :
    decodeEncode ch thr = .ok i ↔ .encode thr = i ∧ ch = 0 := by
  unfold decodeEncode; split_ifs <;> simp_all

theorem decodeSend_eq_ok_iff {ch : Channel} {thr : Throttle} {i : Instr} :
    decodeSend ch thr = .ok i ↔ .send ch = i ∧ thr = 0 := by
  unfold decodeSend; split_ifs <;> simp_all

theorem decode_encode (i : Instr) : decode (encode i) = .ok i := by
  cases i <;> simp [decode, encode, decodeInit, decodeEncode, decodeSend]

/-- The only word that decodes to a command is the command's encoding. -/
theorem decode_eq_ok_iff {w : Word} {i : Instr} : decode w = .ok i ↔ w = encode i := by
  refine ⟨fun h => ?_, fun h => h ▸ decode_encode i⟩
  unfold decode at h
  split_ifs at h with hz hinit henc hload hsend
  · obtain ⟨rfl, hch, hthr⟩ := decodeInit_eq_ok_iff.1 h
    exact eq_commandWord_iff.2 ⟨hinit, hch, not_not.1 hz, hthr⟩
  · obtain ⟨rfl, hch⟩ := decodeEncode_eq_ok_iff.1 h
    exact eq_commandWord_iff.2 ⟨henc, hch, not_not.1 hz, rfl⟩
  · cases h
    exact eq_commandWord_iff.2 ⟨hload, rfl, not_not.1 hz, rfl⟩
  · obtain ⟨rfl, hthr⟩ := decodeSend_eq_ok_iff.1 h
    exact eq_commandWord_iff.2 ⟨hsend, rfl, not_not.1 hz, hthr⟩

/-! ### Each command's words are those of its row (30_encoding.md R63) -/

theorem decode_eq_init_iff_matches (w : Word) :
    decode w = .ok .init ↔ w &&& 0xFFFFFFFF#32 = 0x10000000#32 := by
  rw [decode_eq_ok_iff, encode, eq_commandWord_iff, matches_init_iff]

theorem decode_eq_encode_iff_matches (w : Word) (thr : Throttle) :
    decode w = .ok (.encode thr) ↔ w &&& 0xFFFF0000#32 = 0x20000000#32 ∧ thr = fieldThr w := by
  rw [decode_eq_ok_iff, encode, eq_commandWord_iff, matches_encode_iff, eq_comm (a := thr)]
  simp only [and_assoc]

theorem decode_eq_load_iff_matches (w : Word) (ch : Channel) (thr : Throttle) :
    decode w = .ok (.load ch thr) ↔
      w &&& 0xF0FF0000#32 = 0x30000000#32 ∧ ch = fieldCh w ∧ thr = fieldThr w := by
  rw [decode_eq_ok_iff, encode, eq_commandWord_iff, matches_load_iff, eq_comm (a := ch), eq_comm (a := thr)]
  tauto

theorem decode_eq_send_iff_matches (w : Word) (ch : Channel) :
    decode w = .ok (.send ch) ↔ w &&& 0xF0FFFFFF#32 = 0x40000000#32 ∧ ch = fieldCh w := by
  rw [decode_eq_ok_iff, encode, eq_commandWord_iff, matches_send_iff, eq_comm (a := ch)]
  tauto

/-! ### Illegal words (30_encoding.md R64) -/

/-- Decoding is total: a word is illegal when it is the word of no command. -/
theorem exists_decode_error_iff {w : Word} : (∃ e, decode w = .error e) ↔ ∀ i, decode w ≠ .ok i := by
  cases decode w <;> simp

/-- A word is illegal when it matches no row: whatever operands a matching row would need, the word's own fields supply. -/
theorem exists_decode_error_iff_matches_none (w : Word) :
    (∃ e, decode w = .error e) ↔
      w &&& 0xFFFFFFFF#32 ≠ 0x10000000#32 ∧ w &&& 0xFFFF0000#32 ≠ 0x20000000#32 ∧
        w &&& 0xF0FF0000#32 ≠ 0x30000000#32 ∧ w &&& 0xF0FFFFFF#32 ≠ 0x40000000#32 := by
  rw [exists_decode_error_iff]
  constructor
  · intro h
    exact ⟨fun hm => h _ ((decode_eq_init_iff_matches w).2 hm),
      fun hm => h _ ((decode_eq_encode_iff_matches w _).2 ⟨hm, rfl⟩),
      fun hm => h _ ((decode_eq_load_iff_matches w _ _).2 ⟨hm, rfl, rfl⟩),
      fun hm => h _ ((decode_eq_send_iff_matches w _).2 ⟨hm, rfl⟩)⟩
  · rintro ⟨hinit, henc, hload, hsend⟩ i h
    cases i with
    | init => exact hinit ((decode_eq_init_iff_matches w).1 h)
    | encode thr => exact henc ((decode_eq_encode_iff_matches w thr).1 h).1
    | load ch thr => exact hload ((decode_eq_load_iff_matches w ch thr).1 h).1
    | send ch => exact hsend ((decode_eq_send_iff_matches w ch).1 h).1

/-- The operation codes by their rows: none, INIT, ENCODE, LOAD, SEND, none. -/
theorem op_cases (op : BitVec 4) : op = 0 ∨ op = 1 ∨ op = 2 ∨ op = 3 ∨ op = 4 ∨ 5 ≤ op.toNat := by
  bv_omega

/-- What makes a word match no row, by its OP. -/
theorem matches_none_iff_fields (w : Word) :
    (w &&& 0xFFFFFFFF#32 ≠ 0x10000000#32 ∧ w &&& 0xFFFF0000#32 ≠ 0x20000000#32 ∧
        w &&& 0xF0FF0000#32 ≠ 0x30000000#32 ∧ w &&& 0xF0FFFFFF#32 ≠ 0x40000000#32) ↔
      (fieldOp w = 0 ∨ 5 ≤ (fieldOp w).toNat ∨ fieldZ w ≠ 0 ∨
        (fieldOp w = 1 ∧ (fieldCh w ≠ 0 ∨ fieldThr w ≠ 0)) ∨ (fieldOp w = 2 ∧ fieldCh w ≠ 0) ∨
        (fieldOp w = 4 ∧ fieldThr w ≠ 0)) := by
  simp only [ne_eq, matches_init_iff, matches_encode_iff, matches_load_iff, matches_send_iff]
  rcases op_cases (fieldOp w) with hop | hop | hop | hop | hop | hop
  · simp [hop]
  · simp [hop, imp_iff_not_or, or_comm, or_assoc]
  · simp [hop, imp_iff_not_or, or_comm]
  · simp [hop]
  · simp [hop, imp_iff_not_or, or_comm]
  · have hne : ∀ k : BitVec 4, k.toNat < 5 → fieldOp w ≠ k := by
      rintro k hk rfl; omega
    simp [hop, hne]

end Sys2Proof

namespace Sys2Proof.Machine

/-- A presented illegal word is answered ILLEGAL_CMD, and the rest of the state stays (30_encoding.md R64;
60_exceptions.md R165). -/
theorem step_illegalCommand {s : State} {w : Word} {rest : List Move} {e : DecodeError} (ha : s.ldActive = false)
    (hm : s.moves = .command w :: rest) (hw : decode w = .error e) :
    step s = .next { s with
      moves := rest, rsp := some 0x00040000#32, responses := s.responses ++ [0x00040000#32] } := by
  rw [step_command hm ha, acceptCommand_illegal hw]
  simp [respond, State.taking, State.quiet]

/-! ### The statements -/

/-- Settles O2: the four rows' commands, and illegality as what is left. -/
theorem decodeFollowsTheCommandMap : Obligations.DecodeFollowsTheCommandMap := fun w =>
  ⟨decode_eq_init_iff_matches w, decode_eq_encode_iff_matches w, decode_eq_load_iff_matches w,
    decode_eq_send_iff_matches w, exists_decode_error_iff_matches_none w⟩

/-- Settles O3: a word that matches no row does not decode, so its step is the answer to an illegal word. -/
theorem illegalWordIsAnsweredAndIgnored : Obligations.IllegalWordIsAnsweredAndIgnored := by
  refine ⟨?_, matches_none_iff_fields, .noSuchOperation, by decide⟩
  intro s w rest ha hm hinit henc hload hsend
  obtain ⟨e, he⟩ := (exists_decode_error_iff_matches_none w).2 ⟨hinit, henc, hload, hsend⟩
  exact step_illegalCommand ha hm he

end Sys2Proof.Machine

/-! SUPPORT. The proofs about 40_frame_encoder.md: the frame as throttle, telemetry bit and checksum (R80 to R85), ENCODE (R86),
and the consequences (R88, R89). -/

namespace Sys2Proof.Machine

/-! ### The parts of a frame, as bit vectors (40_frame_encoder.md R80 to R84) -/

/-- The mask of 40_frame_encoder.md R80 is the remainder modulo 2048. -/
theorem toNat_and_mask (thr : Throttle) : (thr &&& 0x7FF#16).toNat = thr.toNat % 2048 := by
  rw [BitVec.toNat_and]; exact Nat.and_two_pow_sub_one_eq_mod thr.toNat 11

/-- The mask and the narrowing keep the same eleven bits. -/
theorem reduceThrottle_eq (thr : Throttle) : reduceThrottle thr = thr.setWidth 11 := by
  refine BitVec.eq_of_toNat_eq ?_
  rw [reduceThrottle, BitVec.toNat_setWidth, BitVec.toNat_setWidth, toNat_and_mask]
  exact Nat.mod_mod _ _

theorem payload_eq_append (t : BitVec 11) : payload t = t ++ 0#1 := by
  refine BitVec.eq_of_getLsbD_eq fun i hi => ?_
  rw [BitVec.getLsbD_append]
  interval_cases i <;> simp [payload, telemetryBit]

theorem packFrame_eq_append (p : BitVec 12) : packFrame p = p ++ checksum p := by
  refine BitVec.eq_of_getLsbD_eq fun i hi => ?_
  rw [BitVec.getLsbD_append]
  interval_cases i <;> simp [packFrame]

/-- Throttle bit i is payload bit i + 1 (40_frame_encoder.md R82). -/
theorem getLsbD_payload_succ (thr : Throttle) {i : Nat} (hi : i < 11) :
    (payload (reduceThrottle thr)).getLsbD (i + 1) = thr.getLsbD i := by
  rw [payload_eq_append, reduceThrottle_eq, BitVec.getLsbD_append]
  simp [hi]

/-- A frame holds the payload above the checksum. -/
theorem extractLsb'_packFrame_payload (p : BitVec 12) : (packFrame p).extractLsb' 4 12 = p := by
  rw [packFrame_eq_append]; exact BitVec.extractLsb'_append_eq_left

/-- A frame holds the reduced throttle in [15:5]. -/
theorem extractLsb'_frame_throttle (t : BitVec 11) : (packFrame (payload t)).extractLsb' 5 11 = t := by
  rw [packFrame_eq_append, BitVec.extractLsb'_append_eq_of_le (by decide), payload_eq_append]
  exact BitVec.extractLsb'_append_eq_left

theorem extractLsb'_encodeFrame_throttle (thr : Throttle) :
    (encodeFrame thr).extractLsb' 5 11 = reduceThrottle thr := extractLsb'_frame_throttle _

/-! ### The parts of a frame, as numbers -/

theorem toNat_append_eq_add {v w : Nat} (x : BitVec v) (y : BitVec w) :
    (x ++ y).toNat = 2 ^ w * x.toNat + y.toNat := by
  rw [BitVec.toNat_append, ← Nat.shiftLeft_add_eq_or_of_lt y.isLt, Nat.shiftLeft_eq, Nat.mul_comm]

theorem toNat_reduceThrottle (thr : Throttle) : (reduceThrottle thr).toNat = thr.toNat % 2048 := by
  rw [reduceThrottle_eq, BitVec.toNat_setWidth]

theorem toNat_payload (t : BitVec 11) : (payload t).toNat = 2 * t.toNat := by
  rw [payload_eq_append]; exact toNat_append_eq_add t 0#1

theorem toNat_checksum (p : BitVec 12) :
    (checksum p).toNat = (p.toNat ^^^ p.toNat / 16 ^^^ p.toNat / 256) % 16 := by
  rw [checksum, BitVec.toNat_setWidth, BitVec.toNat_and, BitVec.toNat_xor, BitVec.toNat_xor, BitVec.toNat_ushiftRight,
    BitVec.toNat_ushiftRight, Nat.shiftRight_eq_div_pow, Nat.shiftRight_eq_div_pow]
  change (_ &&& (2 ^ 4 - 1)) % 2 ^ 4 = _ % 2 ^ 4
  rw [Nat.and_two_pow_sub_one_eq_mod, Nat.mod_mod]

theorem toNat_packFrame (p : BitVec 12) : (packFrame p).toNat = 16 * p.toNat + (checksum p).toNat := by
  rw [packFrame_eq_append]; exact toNat_append_eq_add p (checksum p)

/-! ### The frame as a function of the throttle -/

/-- The mask is applied once or twice alike (40_frame_encoder.md R89 (c)). -/
theorem encodeFrame_mask (thr : Throttle) : encodeFrame (thr &&& 0x7FF#16) = encodeFrame thr := by
  rw [encodeFrame, encodeFrame, reduceThrottle, reduceThrottle, BitVec.and_assoc, BitVec.and_self]

theorem encodeFrame_eq_iff {a b : Throttle} :
    encodeFrame a = encodeFrame b ↔ reduceThrottle a = reduceThrottle b := by
  refine ⟨fun h => ?_, fun h => by rw [encodeFrame, encodeFrame, h]⟩
  rw [← extractLsb'_encodeFrame_throttle a, h, extractLsb'_encodeFrame_throttle]

theorem reduceThrottle_surjective : Function.Surjective reduceThrottle := fun t =>
  ⟨t.setWidth 16, by rw [reduceThrottle_eq, BitVec.setWidth_setWidth_of_le t (by decide), BitVec.setWidth_eq]⟩

/-- Every reduced throttle has its own frame, from which it can be read back. -/
theorem packFrame_payload_injective : Function.Injective fun t => packFrame (payload t) :=
  Function.LeftInverse.injective (g := BitVec.extractLsb' 5 11) extractLsb'_frame_throttle

theorem card_bitVec (w : Nat) : Nat.card (BitVec w) = 2 ^ w := by
  rw [Nat.card_eq_fintype_card, ← FinEnum.card_eq_fintypeCard, FinEnum.card_bitVec]

/-- There are as many frames as reduced throttles (40_frame_encoder.md R89 (d)). -/
theorem ncard_range_encodeFrame : (Set.range encodeFrame).ncard = 2048 :=
  calc (Set.range encodeFrame).ncard
      = (Set.range fun t => packFrame (payload t)).ncard :=
        congrArg Set.ncard (reduceThrottle_surjective.range_comp fun t => packFrame (payload t))
    _ = Nat.card (BitVec 11) := Set.ncard_range_of_injective packFrame_payload_injective
    _ = 2048 := card_bitVec 11

/-! ### The checksum bit by bit (40_frame_encoder.md R88) -/

theorem getLsbD_checksum (p : BitVec 12) {k : Nat} (hk : k < 4) :
    (checksum p).getLsbD k = (p.getLsbD k ^^ p.getLsbD (k + 4) ^^ p.getLsbD (k + 8)) := by
  rw [checksum_eq]
  simp [hk, Nat.add_comm]

/-- A checksum bit of a frame is the XOR of the payload bits above it, in bits of the payload. -/
theorem getLsbD_packFrame_low (p : BitVec 12) {k : Nat} (hk : k < 4) :
    (packFrame p).getLsbD k = (p.getLsbD k ^^ p.getLsbD (k + 4) ^^ p.getLsbD (k + 8)) := by
  rw [← getLsbD_checksum p hk, ← packFrame_checksum]
  simp [hk]

/-- The same, in bits of the frame. -/
theorem getLsbD_packFrame_eq_xor (p : BitVec 12) {k : Nat} (hk : k < 4) :
    (packFrame p).getLsbD k =
      ((packFrame p).getLsbD (k + 4) ^^ (packFrame p).getLsbD (k + 8) ^^ (packFrame p).getLsbD (k + 12)) := by
  rw [getLsbD_packFrame_low p hk, ← getLsbD_packFrame_payload p (i := k) (by omega),
    ← getLsbD_packFrame_payload p (i := k + 4) (by omega), ← getLsbD_packFrame_payload p (i := k + 8) (by omega)]
  simp only [Nat.add_comm, Nat.add_left_comm, Nat.reduceAdd]

/-- The lowest checksum bit: the payload bit 0 is the telemetry bit, which drops out. -/
theorem getLsbD_encodeFrame_zero (thr : Throttle) :
    (encodeFrame thr).getLsbD 0 = (thr.getLsbD 3 ^^ thr.getLsbD 7) := by
  rw [encodeFrame, getLsbD_packFrame_low _ (by decide), getLsbD_payload_zero,
    getLsbD_payload_succ thr (i := 3) (by decide), getLsbD_payload_succ thr (i := 7) (by decide), Bool.false_xor]

/-- The other checksum bits in bits of the throttle. -/
theorem getLsbD_encodeFrame_succ (thr : Throttle) {k : Nat} (hk : k < 3) :
    (encodeFrame thr).getLsbD (k + 1) = (thr.getLsbD k ^^ thr.getLsbD (k + 4) ^^ thr.getLsbD (k + 8)) := by
  rw [encodeFrame, getLsbD_packFrame_low _ (by omega), Nat.add_right_comm k 1 4, Nat.add_right_comm k 1 8,
    getLsbD_payload_succ thr (by omega), getLsbD_payload_succ thr (by omega), getLsbD_payload_succ thr (by omega)]

/-! ### ENCODE (40_frame_encoder.md R86) -/

theorem responseWord_ok (f : Frame) : responseWord .ok f = f.setWidth 32 := by
  rw [BitVec.setWidth_eq_append (by decide)]
  rfl

/-- The answer to ENCODE, with the state it leaves alone (40_frame_encoder.md R86). -/
theorem exec_encode (thr : Throttle) (s : State) : exec (.encode thr) s = .next (respond .ok (encodeFrame thr) s) := rfl

/-- The word that a host writes for ENCODE is the command's encoding (30_encoding.md R63). -/
theorem or_eq_encode (thr : Throttle) : 0x20000000#32 ||| thr.setWidth 32 = encode (.encode thr) := by
  refine BitVec.eq_of_getLsbD_eq fun i hi => ?_
  rw [BitVec.getLsbD_or, encode, getLsbD_commandWord]
  interval_cases i <;> simp

/-! ### The statements -/

/-- Settles O9: the answer is `exec_encode`, the word is the command's encoding, a word with CH or Z not zero matches no row, and
the corner cases are evaluated. -/
theorem encodeAnswersTheFrame : Obligations.EncodeAnswersTheFrame := by
  refine ⟨fun thr s => ?_, fun thr => ?_, fun w hop hfields => ?_, by decide⟩
  · rw [exec_encode, respond, responseWord_ok]
  · rw [or_eq_encode, decode_encode]
  · rw [exists_decode_error_iff_matches_none, matches_none_iff_fields]
    rcases hfields with hch | hz
    · exact .inr (.inr (.inr (.inr (.inl ⟨hop, hch⟩))))
    · exact .inr (.inr (.inl hz))

/-- Settles O10: the value of each part of the frame, and the frame as its parts side by side. -/
theorem frameHoldsPayloadAndChecksum : Obligations.FrameHoldsPayloadAndChecksum := by
  intro thr t p c
  have ht : (reduceThrottle thr).toNat = t := toNat_reduceThrottle thr
  have hp : (payload (reduceThrottle thr)).toNat = p := by rw [toNat_payload, ht]
  have hc : (checksum (payload (reduceThrottle thr))).toNat = c := by rw [toNat_checksum, hp]
  obtain ⟨htel, -⟩ := validFrame_encodeFrame thr
  refine ⟨toNat_and_mask thr, ?_, ?_, ?_, ?_, htel⟩
  · rw [encodeFrame, toNat_packFrame, hp, hc]
  · rw [encodeFrame, extractLsb'_packFrame_payload, ← hp, BitVec.ofNat_toNat, BitVec.setWidth_eq]
  · rw [encodeFrame, packFrame_checksum, ← hc, BitVec.ofNat_toNat, BitVec.setWidth_eq]
  · rw [extractLsb'_encodeFrame_throttle, ← ht, BitVec.ofNat_toNat, BitVec.setWidth_eq]

/-- Settles O11: the checksum bit by bit, with the payload bits found in the frame and in the throttle. -/
theorem checksumBitByBit : Obligations.ChecksumBitByBit := by
  refine ⟨fun p => ⟨?_, fun k => getLsbD_checksum p⟩, fun thr => ⟨fun k => getLsbD_packFrame_eq_xor _,
    getLsbD_encodeFrame_zero thr, getLsbD_encodeFrame_succ thr (k := 0) (by decide),
    getLsbD_encodeFrame_succ thr (k := 1) (by decide), getLsbD_encodeFrame_succ thr (k := 2) (by decide)⟩⟩
  rw [checksum_eq]
  ac_rfl

/-- Settles O12: each frame is valid and holds its throttle, so throttles of eleven bits are told apart by their frames and
counted by them; the answer of ENCODE names no state. -/
theorem frameConsequences : Obligations.FrameConsequences := by
  refine ⟨fun thr => ?_, fun a b ha hb h => ?_, ncard_range_encodeFrame, fun thr s s' => ?_, fun thr hthr => ?_⟩
  · obtain ⟨htel, hnibbles⟩ := validFrame_encodeFrame thr
    exact ⟨hnibbles, htel, (encodeFrame_mask thr).symm, extractLsb'_encodeFrame_throttle thr⟩
  · have hmod : a.toNat % 2048 = b.toNat % 2048 := by
      rw [← toNat_reduceThrottle, encodeFrame_eq_iff.1 h, toNat_reduceThrottle]
    exact BitVec.eq_of_toNat_eq (by omega)
  · exact ⟨_, _, _, exec_encode thr s, exec_encode thr s', rfl, rfl⟩
  · have hmod : thr.toNat % 2048 = thr.toNat := by omega
    rw [encodeFrame, packFrame_checksum, toNat_checksum, toNat_payload, toNat_reduceThrottle, hmod]

end Sys2Proof.Machine

/-! SUPPORT. The proofs about 41_waveform_table.md: the write of one level-multiplex word (R111, R112), a LOAD whose micro-steps
are interleaved with DRAIN steps (R116, R117, R120), and the transfer of tables never loaded (R123). -/

namespace Sys2Proof.Machine

/-! ### Canonical memories are what they read (20_memory.md R40) -/

/-- The cells of a canonical memory are its entries that are not 0. -/
theorem Memory.mem_iff {m : Memory} (hm : m.wf) {a : Addr} {v : Entry} : (a, v) ∈ m ↔ m.get a = v ∧ v ≠ 0 := by
  constructor
  · intro h
    exact ⟨Memory.get_of_mem hm h, hm.2 _ h⟩
  · rintro ⟨rfl, hv⟩
    exact Memory.mem_of_get_ne_zero hv

/-- Canonical memories that read the same at every address are the same list. -/
theorem Memory.ext_of_get {m m' : Memory} (hm : m.wf) (hm' : m'.wf) (h : ∀ a, m.get a = m'.get a) : m = m' := by
  have : Std.Irrefl fun c d : TableCell => c.1.lt d.1 := ⟨fun c => Addr.lt_irrefl c.1⟩
  have : Std.Antisymm fun c d : TableCell => c.1.lt d.1 :=
    ⟨fun c d hcd hdc => absurd (Addr.lt_trans hcd hdc) (Addr.lt_irrefl c.1)⟩
  refine hm.1.eq_of_mem_iff hm'.1 fun ⟨a, v⟩ => ?_
  rw [Memory.mem_iff hm, Memory.mem_iff hm', h a]

theorem BlockInv.tbl_wf {s : State} (h : BlockInv s) : s.tbl.wf := by
  obtain ⟨-, -, -, -, ⟨hwf, -⟩, -⟩ := h
  exact hwf

/-! ### What a LOAD overwrites does not matter (41_waveform_table.md R117) -/

/-- The whole LOAD depends on the memory through the entries it does not write and through what its writes read. -/
theorem loadTable_congr {p : Params} {g : CfgRecord} {c : Channel} {f : Frame} {m m' : Memory} (hm : m.wf) (hm' : m'.wf)
    (hkept : ∀ a : Addr, a.table ≠ tableOf p c ∨ loadWrites p ≤ a.index → m.get a = m'.get a)
    (hwritten : ∀ i < loadWrites p,
      loadedEntry p g c f i (m.get ⟨tableOf p c, i⟩) = loadedEntry p g c f i (m'.get ⟨tableOf p c, i⟩)) :
    loadTable p g c f m = loadTable p g c f m' := by
  refine Memory.ext_of_get (loadTable_wf p g c f hm) (loadTable_wf p g c f hm') fun a => ?_
  rw [get_loadTable p g c f hm, get_loadTable p g c f hm']
  split_ifs with ha
  · obtain ⟨t, i⟩ := a
    obtain ⟨rfl, hi⟩ := ha
    exact hwritten i hi
  · exact hkept a (by omega)

/-- The duty write does not read the old entry (41_waveform_table.md R104). -/
theorem loadedEntry_duty_old {p : Params} (hs : p.strategy = .duty) (g : CfgRecord) (c : Channel) (f : Frame) (i : Nat)
    (old old' : Entry) : loadedEntry p g c f i old = loadedEntry p g c f i old' := by
  simp [loadedEntry, hs]

/-- The level-multiplex write reads the old word outside the channel's mask only (41_waveform_table.md R110). -/
theorem levelWord_congr {m : Half} {old old' : Entry} (h : old &&& ~~~channelBits m = old' &&& ~~~channelBits m)
    (p : Params) (f : Frame) (i : Nat) : levelWord p m f i old = levelWord p m f i old' := by
  simp only [levelWord, h]

/-! ### A LOAD in progress beside a transfer -/

/-- `s` with `a` micro-steps of an accepted LOAD made and the entries `vs` of its transfer delivered; `r` is on the response port
and the moves `ms` remain. Micro-steps after the last one, K + 1, have changed nothing. -/
def raced (s : State) (ch : Channel) (f : Frame) (a : Nat) (vs : List Entry) (r : Option Word) (ms : List Move) : State :=
  { s with
    tbl := loadPrefix s.par s.cfg ch f s.tbl (min a (loadWrites s.par))
    rem := s.rem - BitVec.ofNat 16 vs.length
    ldActive := decide (a ≤ loadWrites s.par)
    ldCh := ch
    ldFrame := f
    ldIdx := BitVec.ofNat 8 (min a (loadWrites s.par))
    out := s.out ++ vs.map (fun v => (s.orDst, v))
    rsp := r
    responses := s.responses ++ if a ≤ loadWrites s.par then [] else [0#32]
    moves := ms }

/-- The entry a DRAIN delivers after `a` micro-steps of the LOAD and `k` deliveries. -/
def racedEntry (s : State) (ch : Channel) (f : Frame) (a k : Nat) : Entry :=
  entryAt (loadPrefix s.par s.cfg ch f s.tbl (min a (loadWrites s.par))) s.orSrc.toNat (s.orLen.toNat - s.rem.toNat + k)

/-- The entries that the moves deliver after `a` micro-steps of the LOAD and `k` deliveries. -/
def racedEntries (s : State) (ch : Channel) (f : Frame) : Nat → Nat → List Move → List Entry
  | _, _, [] => []
  | a, k, .drain :: ms =>
    if k < s.rem.toNat then racedEntry s ch f a k :: racedEntries s ch f a (k + 1) ms else racedEntries s ch f a k ms
  | a, k, .advance :: ms => racedEntries s ch f (a + 1) k ms
  | a, k, _ :: ms => racedEntries s ch f a k ms

/-! ### The steps of a race -/

theorem step_advance {s : State} {rest : List Move} (h : s.moves = .advance :: rest) :
    step s = loadStep (s.quiet.taking rest) := by
  simp [step, h, performMove]

theorem step_drain {s : State} {rest : List Move} (h : s.moves = .drain :: rest) :
    step s = drainStep (s.quiet.taking rest) := by
  simp [step, h, performMove]

/-- A LOAD of an enabled channel is accepted and makes its step 0 (41_waveform_table.md R100, R116). -/
theorem execLoad_accepts {s : State} {ch : Channel} (hi : s.inited = true) (he : enabled s.par s.cfg ch = true)
    (thr : Throttle) : execLoad ch thr s = .next (beginLoad ch (encodeFrame thr) s) := by
  simp [execLoad, hi, he]

theorem step_load {s : State} {ch : Channel} {thr : Throttle} {rest : List Move}
    (hm : s.moves = .command (encode (.load ch thr)) :: rest) (ha : s.ldActive = false) (hi : s.inited = true)
    (he : enabled s.par s.cfg ch = true) :
    step s = .next (beginLoad ch (encodeFrame thr) (s.quiet.taking rest)) := by
  rw [step_command hm ha, acceptCommand_legal (decode_encode _)]
  exact execLoad_accepts (s := s.quiet.taking rest) hi he thr

theorem toNat_ofNat_loadIdx {p : Params} {n : Nat} (h : n ≤ loadWrites p) : (BitVec.ofNat 8 n).toNat = n := by
  have hK := loadWrites_le p
  rw [BitVec.toNat_ofNat, Nat.mod_eq_of_lt (by omega)]

/-- A micro-step writes the next entry, or answers after the last one, or finds the LOAD finished (41_waveform_table.md R116). -/
theorem step_raced_advance (s : State) (ch : Channel) (f : Frame) (a : Nat) (vs : List Entry) (r : Option Word)
    (ms : List Move) :
    ∃ r', step (raced s ch f a vs r (.advance :: ms)) = .next (raced s ch f (a + 1) vs r' ms) := by
  rw [step_advance rfl]
  rcases Nat.lt_trichotomy a (loadWrites s.par) with hlt | heq | hgt
  · refine ⟨none, ?_⟩
    have hidx : (BitVec.ofNat 8 a).toNat = a := toNat_ofNat_loadIdx hlt.le
    rw [loadStep_write (by simpa [raced] using hlt.le) (by simpa [raced, hlt.le, hidx] using hlt)]
    simp [-BitVec.toNat_ofNat, raced, State.quiet, State.taking, hidx, hlt.le, Nat.succ_le_of_lt hlt, loadPrefix,
      BitVec.ofNat_add]
  · refine ⟨some 0#32, ?_⟩
    have hidx : (BitVec.ofNat 8 (loadWrites s.par)).toNat = loadWrites s.par := toNat_ofNat_loadIdx le_rfl
    rw [loadStep_finish (by simp [raced, heq]) (by simp [raced, heq, hidx])]
    simp [raced, State.quiet, State.taking, finishLoad, respond, heq]
  · refine ⟨none, ?_⟩
    rw [loadStep_idle (by simpa [raced] using hgt)]
    have hmin : min a (loadWrites s.par) = min (a + 1) (loadWrites s.par) := by omega
    simp [raced, State.quiet, State.taking, hmin, Nat.not_le.2 hgt, Nat.not_le.2 (Nat.lt_succ_of_lt hgt)]

/-- The count of a transfer after `k` deliveries. -/
theorem toNat_sub_ofNat {n : Count} {k : Nat} (h : k ≤ n.toNat) : (n - BitVec.ofNat 16 k).toNat = n.toNat - k := by
  have hn := n.isLt
  have hk : (BitVec.ofNat 16 k).toNat = k := by rw [BitVec.toNat_ofNat, Nat.mod_eq_of_lt (by omega)]
  rw [BitVec.toNat_sub_of_le (by rwa [BitVec.le_def, hk]), hk]

theorem sub_ofNat_ne_zero {n : Count} {k : Nat} (h : k < n.toNat) : n - BitVec.ofNat 16 k ≠ 0 := by
  have hcount := toNat_sub_ofNat h.le
  bv_omega

theorem sub_ofNat_succ (n : Count) (k : Nat) : n - BitVec.ofNat 16 (k + 1) = n - BitVec.ofNat 16 k - 1 := by
  rw [BitVec.ofNat_add]; bv_omega

/-- A DRAIN of a transfer in flight delivers the entry as the writes so far have left it (42_admission.md R135). -/
theorem step_raced_drain {s : State} (h : BlockInv s) (ch : Channel) (f : Frame) (a : Nat) {vs : List Entry}
    (hvs : vs.length < s.rem.toNat) (r : Option Word) (ms : List Move) :
    step (raced s ch f a vs r (.drain :: ms)) =
      .next (raced s ch f a (vs ++ [racedEntry s ch f a vs.length]) none ms) := by
  obtain ⟨-, ⟨hle, -⟩, htransfer, -⟩ := h
  obtain ⟨hen, -⟩ := htransfer (by bv_omega)
  have hrem := toNat_sub_ofNat hvs.le
  have hindex : s.orLen.toNat - (s.rem.toNat - vs.length) = s.orLen.toNat - s.rem.toNat + vs.length := by omega
  have hne := sub_ofNat_ne_zero hvs
  rw [step_drain rfl, drainStep_delivers (by simpa [raced] using hen) (by simpa [raced] using hne)]
  simp [raced, racedEntry, State.quiet, State.taking, emit, hrem, hindex, sub_ofNat_succ]

/-- A DRAIN after the last delivery changes nothing. -/
theorem step_raced_drain_done {s : State} (ch : Channel) (f : Frame) (a : Nat) {vs : List Entry}
    (hvs : vs.length = s.rem.toNat) (r : Option Word) (ms : List Move) :
    step (raced s ch f a vs r (.drain :: ms)) = .next (raced s ch f a vs none ms) := by
  rw [step_drain rfl, drainStep_disabled (by simp [State.drainEnabled, raced, hvs])]
  rfl

/-- The run of a race: it makes its micro-steps, and delivers the entries `racedEntries` names. -/
theorem runSteps_raced {s : State} (h : BlockInv s) (ch : Channel) (f : Frame) (rest : List Move) {ms : List Move}
    (hms : ∀ m ∈ ms, m.isAdvanceOrDrain = true) (a : Nat) {vs : List Entry} (hvs : vs.length ≤ s.rem.toNat)
    (r : Option Word) :
    ∃ r', runSteps ms.length (raced s ch f a vs r (ms ++ rest)) =
      .next (raced s ch f (a + ms.count .advance) (vs ++ racedEntries s ch f a vs.length ms) r' rest) := by
  induction ms generalizing a vs r with
  | nil => exact ⟨r, by simp [racedEntries]⟩
  | cons m ms ih =>
    obtain ⟨hm, hms'⟩ := List.forall_mem_cons.1 hms
    cases m with
    | advance =>
      obtain ⟨r₁, hstep⟩ := step_raced_advance s ch f a vs r (ms ++ rest)
      obtain ⟨r', hrun⟩ := ih hms' (a + 1) hvs r₁
      refine ⟨r', (runSteps_succ hstep _).trans (hrun.trans ?_)⟩
      simp [racedEntries, Nat.add_assoc, Nat.add_comm 1]
    | drain =>
      rcases hvs.lt_or_eq with hlt | heq
      · obtain ⟨r', hrun⟩ := ih hms' a (vs := vs ++ [racedEntry s ch f a vs.length]) (by simpa using hlt) none
        refine ⟨r', (runSteps_succ (step_raced_drain h ch f a hlt r _) _).trans (hrun.trans ?_)⟩
        simp [racedEntries, hlt]
      · obtain ⟨r', hrun⟩ := ih hms' a hvs none
        refine ⟨r', (runSteps_succ (step_raced_drain_done ch f a heq r _) _).trans (hrun.trans ?_)⟩
        simp [racedEntries, heq]
    | _ => cases hm

/-- An accepted LOAD followed by micro-steps and DRAIN moves. -/
theorem runSteps_load {s : State} (h : BlockInv s) {ch : Channel} (thr : Throttle) (ha : s.ldActive = false)
    (hi : s.inited = true) (he : enabled s.par s.cfg ch = true) {ms : List Move}
    (hms : ∀ m ∈ ms, m.isAdvanceOrDrain = true) (rest : List Move) :
    ∃ r, runSteps (ms.length + 1) { s with moves := .command (encode (.load ch thr)) :: (ms ++ rest) } =
      .next (raced s ch (encodeFrame thr) (ms.count .advance) (racedEntries s ch (encodeFrame thr) 0 0 ms) r rest) := by
  have hstep : step { s with moves := .command (encode (.load ch thr)) :: (ms ++ rest) } =
      .next (raced s ch (encodeFrame thr) 0 [] none (ms ++ rest)) := by
    refine (step_load (s := { s with moves := _ }) rfl ha hi he).trans ?_
    simp [beginLoad, raced, State.quiet, State.taking, loadPrefix]
  obtain ⟨r, hrun⟩ := runSteps_raced h ch (encodeFrame thr) rest hms 0 (vs := []) (Nat.zero_le _) none
  exact ⟨r, (runSteps_succ hstep _).trans (by simpa using hrun)⟩

/-! ### What a race delivers (41_waveform_table.md R120) -/

theorem length_racedEntries (s : State) (ch : Channel) (f : Frame) (a : Nat) {k : Nat} {ms : List Move} :
    (racedEntries s ch f a k ms).length = min (ms.count .drain) (s.rem.toNat - k) := by
  induction ms generalizing a k with
  | nil => simp [racedEntries]
  | cons m ms ih =>
    cases m with
    | drain =>
      by_cases hk : k < s.rem.toNat
      · simp only [racedEntries, hk, if_true, List.length_cons, ih, List.count_cons_self]; omega
      · simp only [racedEntries, hk, if_false, ih, List.count_cons_self]; omega
    | _ => simp [racedEntries, ih]

/-- Each entry is delivered after some number of micro-steps. -/
theorem getElem_racedEntries (s : State) (ch : Channel) (f : Frame) (a : Nat) {k : Nat} {ms : List Move} {j : Nat}
    (hj : j < (racedEntries s ch f a k ms).length) :
    ∃ n, (racedEntries s ch f a k ms)[j] = racedEntry s ch f n (k + j) := by
  induction ms generalizing a k j with
  | nil => simp [racedEntries] at hj
  | cons m ms ih =>
    cases m with
    | drain =>
      by_cases hk : k < s.rem.toNat
      · simp only [racedEntries, hk, if_true] at hj ⊢
        cases j with
        | zero => exact ⟨a, rfl⟩
        | succ j =>
          obtain ⟨n, hn⟩ := ih a (k := k + 1) (j := j) (by simpa using hj)
          exact ⟨n, by rw [List.getElem_cons_succ, hn, Nat.add_assoc, Nat.add_comm 1]⟩
      · simp only [racedEntries, hk, if_false] at hj ⊢
        exact ih a hj
    | _ => simp only [racedEntries] at hj ⊢; exact ih _ hj

/-- A write of an entry is all of it or none: while a LOAD is in progress each entry is old or as the LOAD will leave it. -/
theorem entryAt_loadPrefix (p : Params) (g : CfgRecord) (c : Channel) (f : Frame) {m : Memory} (hm : m.wf) {n : Nat}
    (hn : n ≤ loadWrites p) (t i : Nat) :
    entryAt (loadPrefix p g c f m n) t i =
      if i < n then entryAt (loadTable p g c f m) t i else entryAt m t i := by
  rw [entryAt, entryAt, entryAt, get_loadPrefix p g c f hm, get_loadTable p g c f hm]
  by_cases hi : i < n
  · simp [hi, show i < loadWrites p by omega]
  · simp [hi]

/-- Past the last write a LOAD leaves the table as it was (41_waveform_table.md R105, R113). -/
theorem entryAt_loadTable_gap (p : Params) (g : CfgRecord) (c : Channel) (f : Frame) {m : Memory} (hm : m.wf) (t : Nat)
    {i : Nat} (hi : loadWrites p ≤ i) : entryAt (loadTable p g c f m) t i = entryAt m t i := by
  simp [entryAt, get_loadTable p g c f hm, Nat.not_lt.2 hi]

/-- A DRAIN delivers the new entry where the micro-steps have passed it, and the old one where they have not. -/
theorem racedEntry_eq {s : State} (hm : s.tbl.wf) (ch : Channel) (f : Frame) (a k : Nat) :
    racedEntry s ch f a k =
      if s.orLen.toNat - s.rem.toNat + k < a then
        entryAt (loadTable s.par s.cfg ch f s.tbl) s.orSrc.toNat (s.orLen.toNat - s.rem.toNat + k)
      else entryAt s.tbl s.orSrc.toNat (s.orLen.toNat - s.rem.toNat + k) := by
  rw [racedEntry, entryAt_loadPrefix _ _ _ _ hm (Nat.min_le_right _ _)]
  by_cases hK : loadWrites s.par ≤ s.orLen.toNat - s.rem.toNat + k
  · simp [entryAt_loadTable_gap _ _ _ _ hm _ hK]
  · simp [Nat.not_le.1 hK]

/-! ### The interleaving that delivers a given pattern -/

/-- A micro-step and a DRAIN for each of the `n` entries from index `i` on: the micro-step, which writes that entry, comes first
where the new one is wanted. -/
def patternMoves (pattern : Nat → Bool) : Nat → Nat → List Move
  | _, 0 => []
  | i, n + 1 => (if pattern i then [.advance, .drain] else [.drain, .advance]) ++ patternMoves pattern (i + 1) n

/-- The LOAD first catches up with a transfer that has reached index `i`. -/
def catchUpMoves (pattern : Nat → Bool) (i n : Nat) : List Move := List.replicate i .advance ++ patternMoves pattern i n

theorem count_advance_patternMoves (pattern : Nat → Bool) (i n : Nat) :
    (patternMoves pattern i n).count .advance = n := by
  induction n generalizing i with
  | zero => rfl
  | succ n ih => cases hp : pattern i <;> simp [patternMoves, hp, ih]

theorem count_advance_catchUpMoves (pattern : Nat → Bool) (i n : Nat) :
    (catchUpMoves pattern i n).count .advance = i + n := by
  rw [catchUpMoves, List.count_append, List.count_replicate_self, count_advance_patternMoves]

theorem isAdvanceOrDrain_of_mem_patternMoves (pattern : Nat → Bool) (i n : Nat) :
    ∀ m ∈ patternMoves pattern i n, m.isAdvanceOrDrain = true := by
  induction n generalizing i with
  | zero => simp [patternMoves]
  | succ n ih =>
    refine List.forall_mem_append.2 ⟨?_, ih (i + 1)⟩
    cases pattern i <;> simp [Move.isAdvanceOrDrain]

theorem isAdvanceOrDrain_of_mem_catchUpMoves (pattern : Nat → Bool) (i n : Nat) :
    ∀ m ∈ catchUpMoves pattern i n, m.isAdvanceOrDrain = true :=
  List.forall_mem_append.2
    ⟨fun _ hm => List.eq_of_mem_replicate hm ▸ rfl, isAdvanceOrDrain_of_mem_patternMoves pattern i n⟩

theorem racedEntries_replicate_advance (s : State) (ch : Channel) (f : Frame) (a k n : Nat) (ms : List Move) :
    racedEntries s ch f a k (List.replicate n .advance ++ ms) = racedEntries s ch f (a + n) k ms := by
  induction n generalizing a with
  | zero => simp
  | succ n ih => rw [List.replicate_succ, List.cons_append, racedEntries, ih, Nat.add_assoc, Nat.add_comm 1]

/-- With the micro-steps level with the deliveries, the moves of a pattern deliver the pattern. -/
theorem racedEntries_patternMoves {s : State} (hm : s.tbl.wf) (ch : Channel) (f : Frame) (pattern : Nat → Bool) {n k : Nat}
    (hk : k + n = s.rem.toNat) {i : Nat} (hi : i = s.orLen.toNat - s.rem.toNat + k) :
    racedEntries s ch f i k (patternMoves pattern i n) =
      (List.range' i n).map fun j =>
        if pattern j then entryAt (loadTable s.par s.cfg ch f s.tbl) s.orSrc.toNat j
        else entryAt s.tbl s.orSrc.toNat j := by
  induction n generalizing k i with
  | zero => rfl
  | succ n ih =>
    have hrest := ih (k := k + 1) (i := i + 1) (by omega) (by omega)
    have hlt : k < s.rem.toNat := by omega
    cases hp : pattern i <;>
      simp [patternMoves, racedEntries, List.range'_succ, hp, hlt, hrest, racedEntry_eq hm, ← hi]

/-- From the start of the LOAD on, the pattern is delivered over all the entries that remain. -/
theorem racedEntries_catchUpMoves {s : State} (hm : s.tbl.wf) (ch : Channel) (f : Frame) (pattern : Nat → Bool) :
    racedEntries s ch f 0 0 (catchUpMoves pattern (s.orLen.toNat - s.rem.toNat) s.rem.toNat) =
      (List.range s.rem.toNat).map fun j =>
        if pattern (s.orLen.toNat - s.rem.toNat + j) then
          entryAt (loadTable s.par s.cfg ch f s.tbl) s.orSrc.toNat (s.orLen.toNat - s.rem.toNat + j)
        else entryAt s.tbl s.orSrc.toNat (s.orLen.toNat - s.rem.toNat + j) := by
  rw [catchUpMoves, racedEntries_replicate_advance, Nat.zero_add,
    racedEntries_patternMoves hm ch f pattern (Nat.zero_add _) (Nat.add_zero _).symm, List.range'_eq_map_range,
    List.map_map]
  rfl

/-! ### The transfer that nothing races (42_admission.md R137, R138) -/

theorem deliveries_succ (d : Dest) (m : Memory) (t k n : Nat) :
    deliveries d m t k (n + 1) = deliveries d m t k n ++ [(d, entryAt m t (k + n))] := by
  simp [deliveries, List.range_succ]

/-- A transfer of a zero table delivers zeros (41_waveform_table.md R123). -/
theorem deliveries_nil (d : Dest) (t k n : Nat) : deliveries d [] t k n = List.replicate n (d, 0) := by
  simp [deliveries, entryAt]

/-- A SEND of an enabled channel while Idle is accepted (42_admission.md R130). -/
theorem execSend_accepts {s : State} {ch : Channel} (hi : s.inited = true) (he : enabled s.par s.cfg ch = true)
    (hr : s.rem = 0) : execSend ch s = .next (respond .ok 0 (startTransfer ch s)) := by
  simp [execSend, hi, he, hr, State.busy]

theorem step_send {s : State} {ch : Channel} {rest : List Move} (hm : s.moves = .command (encode (.send ch)) :: rest)
    (ha : s.ldActive = false) (hi : s.inited = true) (he : enabled s.par s.cfg ch = true) (hr : s.rem = 0) :
    step s = .next (respond .ok 0 (startTransfer ch (s.quiet.taking rest))) := by
  rw [step_command hm ha, acceptCommand_legal (decode_encode _)]
  exact execSend_accepts (s := s.quiet.taking rest) hi he hr

/-- With no move given and no LOAD in progress the next step of an enabled transfer is its DRAIN (42_admission.md R137). -/
theorem step_settles_drain {s : State} (hm : s.moves = []) (ha : s.ldActive = false) (he : s.orEn = true)
    (hr : s.rem ≠ 0) :
    step s = .next { s with
      rsp := none, rem := s.rem - 1,
      out := s.out ++ [(s.orDst, entryAt s.tbl s.orSrc.toNat (s.orLen.toNat - s.rem.toNat))] } := by
  have hsettle : step s = drainStep s.quiet := by simp [step, hm, settle, ha]
  rw [hsettle, drainStep_delivers (s := s.quiet) he hr]
  rfl

/-- Left alone, a transfer delivers its next `n` entries in `n` steps. -/
theorem runSteps_settles_drains {s : State} (hm : s.moves = []) (ha : s.ldActive = false) (he : s.orEn = true)
    (hle : s.rem.toNat ≤ s.orLen.toNat) {n : Nat} (hn : n ≤ s.rem.toNat) :
    ∃ r, runSteps n s = .next { s with
      rsp := r, rem := s.rem - BitVec.ofNat 16 n,
      out := s.out ++ deliveries s.orDst s.tbl s.orSrc.toNat (s.orLen.toNat - s.rem.toNat) n } := by
  induction n with
  | zero => exact ⟨s.rsp, by simp [deliveries]⟩
  | succ n ih =>
    obtain ⟨r, hrun⟩ := ih (by omega)
    have hrem := toNat_sub_ofNat (Nat.le_of_succ_le hn)
    have hne := sub_ofNat_ne_zero (Nat.lt_of_succ_le hn)
    have hindex : s.orLen.toNat - (s.rem.toNat - n) = s.orLen.toNat - s.rem.toNat + n := by omega
    refine ⟨none, (runSteps_add hrun 1).trans (runSteps_one ?_)⟩
    refine (step_settles_drain (s := { s with rsp := r, rem := _, out := _ }) hm ha he hne).trans ?_
    simp [hrem, hindex, deliveries_succ, sub_ofNat_succ]

/-! ### Zero entries on the lines (41_waveform_table.md R121, R122) -/

theorem applyWord_zero (pins : Half) : applyWord pins 0#32 = pins := by
  rw [applyWord, clrHalf_zero, setHalf_zero, BitVec.not_zero, BitVec.and_allOnes, BitVec.or_zero]

theorem pinsAfter_replicate_zero (pins : Half) (n : Nat) : pinsAfter pins (List.replicate n 0#32) = pins := by
  induction n with
  | zero => rfl
  | succ n ih => rw [pinsAfter, List.replicate_succ, List.foldl_cons, applyWord_zero]; exact ih

theorem dutyLevel_zero (tick : Nat) : dutyLevel 0#32 tick = false := by
  simp [dutyLevel]

/-! ### The statements -/

/-- Settles O22: the two halves of a level-multiplex write, whose sub-slots and frame bit are those the statement writes out. -/
theorem levelWordWriteRule : Obligations.LevelWordWriteRule := by
  intro p g c f i old hs _
  rw [loadedEntry_levelMux hs]
  exact ⟨setHalf_levelWord p (g.maskOf c) f i old, clrHalf_levelWord p (g.maskOf c) f i old⟩

/-- Settles O27: the run of the race has made all K + 1 micro-steps, whatever it delivered; and what the writes of a LOAD read is
nothing in the duty strategy and the bits outside the mask in the level-multiplex one. -/
theorem loadEndsAsLoadTable : Obligations.LoadEndsAsLoadTable := by
  refine ⟨fun s ch thr ms rest h ha hi he hms hcount hm => ?_, fun p g c f m m' hs hwf hwf' hkept => ?_,
    fun p g c f m m' hs hwf hwf' hkept hword => ?_⟩
  · obtain ⟨r, hrun⟩ := runSteps_load h thr ha hi he hms rest
    rw [← hm] at hrun
    have hend : ¬ms.count .advance ≤ loadWrites s.par := by omega
    refine ⟨_, hrun, rfl, by simpa [raced] using hend, ?_, by simp [raced, hend], rfl, hi, rfl, rfl, rfl⟩
    rw [raced, Nat.min_eq_right (by omega), loadTable]
  · have ht : tableOf p c = c.toNat := by simp [tableOf, hs]
    have hK : loadWrites p = 16 := by simp [loadWrites, hs]
    exact loadTable_congr hwf hwf' (by rwa [ht, hK]) fun i _ => loadedEntry_duty_old hs ..
  · have ht : tableOf p c = 0 := by simp [tableOf, hs]
    have hK : loadWrites p = 128 := by simp [loadWrites, hs, packetBits, slotsPerBit]
    refine loadTable_congr hwf hwf' (by rwa [ht, hK]) fun i hlt => ?_
    rw [loadedEntry_levelMux hs, loadedEntry_levelMux hs, ht]
    exact levelWord_congr (hword i (hK ▸ hlt)) p f i

/-- Settles O29: each entry is delivered after some number of micro-steps, hence old or new as a whole; and the new one agrees with
the old one on the mask of every other enabled channel (O26). -/
theorem racingTransferDeliversOldOrNew : Obligations.RacingTransferDeliversOldOrNew := by
  intro s ch thr ms rest h ha hi he hms hm
  obtain ⟨r, hrun⟩ := runSteps_load h thr ha hi he hms rest
  rw [← hm] at hrun
  refine ⟨_, _, hrun, length_racedEntries .., rfl, ?_⟩
  intro j hj i
  obtain ⟨n, hn⟩ := getElem_racedEntries _ _ _ _ hj
  rw [hn, racedEntry_eq h.tbl_wf, Nat.zero_add]
  by_cases hlt : i < n
  · rw [if_pos hlt]
    refine ⟨.inr rfl, fun hs b hb hne => ?_⟩
    exact (otherChannelsKeepTheirBits s ch b thr h hs hi he hb hne.symm ⟨s.orSrc.toNat, i⟩).1
  · rw [if_neg hlt]
    exact ⟨.inl rfl, fun _ _ _ _ => rfl⟩

/-- Settles O30: the LOAD first catches up with the transfer, then each entry is written just before or just after its delivery;
the gap makes these micro-steps at least the K + 1 that the LOAD takes. -/
theorem everyRacePatternHappens : Obligations.EveryRacePatternHappens := by
  intro s ch thr pattern h ha hi he hr _
  have ⟨⟨_, hgap, _⟩, _⟩ := h
  obtain ⟨_, hle, hlen⟩ := h.rem_range hr
  have hend : loadWrites s.par < s.orLen.toNat := hlen ▸ loadWrites_lt_tableLen hgap
  have hms := isAdvanceOrDrain_of_mem_catchUpMoves pattern (s.orLen.toNat - s.rem.toNat) s.rem.toNat
  obtain ⟨r, hrun⟩ := runSteps_load h thr ha hi he hms []
  rw [List.append_nil, count_advance_catchUpMoves, Nat.sub_add_cancel hle, racedEntries_catchUpMoves h.tbl_wf] at hrun
  refine ⟨_, hms, _, hrun, by simpa [raced] using hend, by simp [raced], ?_, ?_⟩
  · rw [raced, Nat.min_eq_right hend.le, loadTable]
  · simp [raced, Function.comp_def]

/-- Settles O41: the SEND starts the transfer, which left alone delivers LEN entries of a memory in which nothing is listed; a zero
word leaves the lines and a zero threshold is above no tick. -/
theorem neverLoadedTableSendsZeros : Obligations.NeverLoadedTableSendsZeros := by
  refine ⟨fun s ch h ha hi he hr htbl hm => ?_, pinsAfter_replicate_zero, fun period n => ?_⟩
  · have ⟨⟨_, hgap, _⟩, _⟩ := h
    have hlen := toNat_ofNat_tableLen hgap
    obtain ⟨r, hrun⟩ := runSteps_settles_drains (s := respond .ok 0 (startTransfer ch (s.quiet.taking [])))
      rfl ha rfl le_rfl hlen.ge
    refine ⟨_, (runSteps_succ (step_send hm ha hi he hr) _).trans hrun, ⟨ha, .inl ?_⟩, ?_, ?_⟩
    · simp
    · simp
    · simp [htbl, deliveries_nil]
  · simp [dutyWave, dutyLevel_zero]

end Sys2Proof.Machine

/-! SUPPORT. The proofs about 42_admission.md: SEND (R130 to R132), the DRAIN step (R135, R136), what one step does to the count
and to the output trace (R134), and the transfer whose table no LOAD writes (R138). -/

namespace Sys2Proof.Machine

/-! ### SEND (42_admission.md R130 to R132) -/

theorem exec_send (ch : Channel) (s : State) : exec (.send ch) s = execSend ch s := rfl

theorem enabled_iff {p : Params} {g : CfgRecord} {c : Channel} :
    enabled p g c = true ↔ c.toNat < p.nch ∧ g.en.getLsbD c.toNat = true := by
  simp [enabled, CfgRecord.enOf]

/-- A SEND of an enabled channel while a transfer is in flight is turned away (42_admission.md R132). -/
theorem execSend_busy {s : State} {ch : Channel} (hi : s.inited = true) (he : enabled s.par s.cfg ch = true)
    (hr : s.rem ≠ 0) : execSend ch s = .next (respond .busyRejected 0 s) := by
  have hbusy : s.busy = true := by simpa [State.busy] using hr
  simp [execSend, hi, he, hbusy, reject]

theorem tableLen_pos (p : Params) : 0 < tableLen p := by
  cases hs : p.strategy <;> simp only [tableLen, hs, packetBits, slotsPerBit] <;> omega

/-- A transfer starts with a count that is not 0, since every table holds a frame (00_scope.md R9). -/
theorem ofNat_tableLen_ne_zero {p : Params} (h : p.gapWf) : BitVec.ofNat 16 (tableLen p) ≠ 0 := by
  have hlen := toNat_ofNat_tableLen h
  have hpos := tableLen_pos p
  bv_omega

/-! ### DRAIN (42_admission.md R135, R136) -/

theorem drainEnabled_iff (s : State) : s.drainEnabled = true ↔ s.orEn = true ∧ s.rem ≠ 0 := by
  simp [State.drainEnabled]

theorem toNat_sub_one_add_one {n : Count} (h : n ≠ 0) : (n - 1).toNat + 1 = n.toNat := by bv_omega

/-- An enabled DRAIN on the whole state: one entry moves, and the count drops by one (42_admission.md R135). -/
theorem step_drain_delivers {s : State} {rest : List Move} (hm : s.moves = .drain :: rest) (he : s.orEn = true)
    (hr : s.rem ≠ 0) :
    step s = .next { s with
      moves := rest, rsp := none, rem := s.rem - 1,
      out := s.out ++ [(s.orDst, entryAt s.tbl s.orSrc.toNat (s.orLen.toNat - s.rem.toNat))] } :=
  (step_drain hm).trans (drainStep_delivers (s := s.quiet.taking rest) he hr)

/-! ### What one step does to REM and OUT (42_admission.md R134) -/

theorem loadStep_output {s t : State} (h : loadStep s = .next t) : t.rem = s.rem ∧ t.out = s.out := by
  rcases loadStep_cases h with ⟨-, rfl⟩ | ⟨-, -, rfl⟩ | ⟨-, -, rfl⟩ <;> exact ⟨rfl, rfl⟩

/-- From `s` to `t` the transfer goes one delivery further: the count one less, and one pair more in OUT. -/
def Delivers (s t : State) : Prop := s.rem ≠ 0 ∧ t.rem = s.rem - 1 ∧ ∃ d v, t.out = s.out ++ [(d, v)]

theorem drainStep_output {s t : State} (h : drainStep s = .next t) : (t.rem = s.rem ∧ t.out = s.out) ∨ Delivers s t := by
  rcases drainStep_cases h with ⟨-, rfl⟩ | ⟨-, hr, rfl⟩
  · exact .inl ⟨rfl, rfl⟩
  · exact .inr ⟨hr, rfl, _, _, rfl⟩

theorem acceptCommand_output {w : Word} {s t : State} (h : acceptCommand w s = .next t) :
    (t.rem = s.rem ∧ t.out = s.out) ∨
      (s.rem = 0 ∧ t.rem = BitVec.ofNat 16 (tableLen s.par) ∧ t.out = s.out ∧
        ∃ ch, decode w = .ok (.send ch) ∧ enabled s.par s.cfg ch = true) := by
  rcases acceptCommand_cases w s with
      ⟨st, -, e⟩ | ⟨thr, -, e⟩ | ⟨-, -, -, e⟩ | ⟨ch, thr, -, -, -, e⟩ | ⟨ch, hw, -, he, hr, e⟩ <;>
    obtain rfl : _ = t := by simpa [e] using h
  case inr.inr.inr.inr => exact .inr ⟨hr, rfl, rfl, ch, hw, he⟩
  all_goals exact .inl ⟨rfl, rfl⟩

/-- A step leaves REM and OUT, or delivers one entry, or accepts a SEND while Idle, or is `rst`. -/
theorem step_output {s t : State} (h : step s = .next t) :
    (t.rem = s.rem ∧ t.out = s.out) ∨ Delivers s t ∨
      (s.rem = 0 ∧ t.rem = BitVec.ofNat 16 (tableLen s.par) ∧ t.out = s.out ∧ s.ldActive = false ∧
        ∃ w ch rest, s.moves = .command w :: rest ∧ decode w = .ok (.send ch) ∧ enabled s.par s.cfg ch = true) ∨
      (t.rem = 0 ∧ ∃ rest, s.moves = .assertReset :: rest) := by
  rcases step_cases s with ⟨-, -, e⟩ | ⟨-, -, e⟩ | ⟨w, rest, hm, ha, e⟩ | ⟨w, rest, -, -, e⟩ | ⟨rest, -, e⟩ |
      ⟨rest, -, e⟩ | ⟨q, rest, -, e⟩ | ⟨rest, -, e⟩ | ⟨rest, hm, e⟩ <;> rw [e] at h
  · exact .inl (loadStep_output (s := s.quiet) h)
  · exact (drainStep_output h).imp_right .inl
  · obtain hsame | ⟨hr, ht, hout, ch, hw, he⟩ := acceptCommand_output h
    · exact .inl hsame
    · exact .inr (.inr (.inl ⟨hr, ht, hout, ha, w, ch, rest, hm, hw, he⟩))
  · exact .inl (loadStep_output (s := s.quiet) h)
  · exact .inl (loadStep_output (s := s.quiet.taking rest) h)
  · exact (drainStep_output h).imp_right .inl
  · cases h; exact .inl ⟨rfl, rfl⟩
  · cases h; exact .inl ⟨rfl, rfl⟩
  · cases h; exact .inr (.inr (.inr ⟨rfl, rest, hm⟩))

/-! ### A command that waits for the LOAD in progress (30_encoding.md R60; 41_waveform_table.md R116) -/

theorem loadStep_moves {s t : State} (h : loadStep s = .next t) : t.moves = s.moves := by
  rcases loadStep_cases h with ⟨-, rfl⟩ | ⟨-, -, rfl⟩ | ⟨-, -, rfl⟩ <;> rfl

theorem exists_loadStep (s : State) : ∃ t, loadStep s = .next t := by
  cases ha : s.ldActive with
  | false => exact ⟨s, loadStep_idle ha⟩
  | true =>
    rcases Nat.lt_or_ge s.ldIdx.toNat (loadWrites s.par) with hk | hk
    · exact ⟨_, loadStep_write ha hk⟩
    · exact ⟨_, loadStep_finish ha hk⟩

theorem step_command_waits {s : State} {w : Word} {rest : List Move} (h : s.moves = .command w :: rest)
    (ha : s.ldActive = true) : step s = loadStep s.quiet := by
  simp [step, h, performMove, State.cmdReady, ha]

/-- A presented command meets a ready port after some number of steps, and what every micro-step keeps still holds then. -/
theorem runSteps_command_waits {P : State → Prop} (hP : ∀ u v, P u → loadStep u.quiet = .next v → P v) {u : State}
    {w : Word} {rest : List Move} (hu : P u) (hm : u.moves = .command w :: rest) :
    ∃ n v, runSteps n u = .next v ∧ v.moves = .command w :: rest ∧ v.ldActive = false ∧ P v := by
  cases ha : u.ldActive with
  | false => exact ⟨0, u, runSteps_zero u, hm, ha, hu⟩
  | true =>
    rcases Nat.lt_or_ge u.ldIdx.toNat (loadWrites u.par) with hk | hk
    · have hwrite := loadStep_write (s := u.quiet) ha hk
      have hK := loadWrites_le u.par
      have hidx : (u.ldIdx + 1).toNat = u.ldIdx.toNat + 1 := by bv_omega
      obtain ⟨n, v, hrun, hv⟩ := runSteps_command_waits hP (hP _ _ hu hwrite) hm
      exact ⟨n + 1, v, (runSteps_succ ((step_command_waits hm ha).trans hwrite) n).trans hrun, hv⟩
    · have hfinish := loadStep_finish (s := u.quiet) ha hk
      exact ⟨1, _, runSteps_one ((step_command_waits hm ha).trans hfinish), hm, rfl, hP _ _ hu hfinish⟩
termination_by loadWrites u.par - u.ldIdx.toNat
decreasing_by simp only [quiet_par, quiet_ldIdx, hidx]; omega

/-! ### The host's moves beside the command port (00_scope.md R15; 30_encoding.md R73) -/

theorem step_drivePorts {s : State} {q : CfgPorts} {rest : List Move} (h : s.moves = .drivePorts q :: rest) :
    step s = .next (driveConfigPorts q (s.quiet.taking rest)) := by
  simp [step, h, performMove]

theorem step_sample {s : State} {rest : List Move} (h : s.moves = .sample :: rest) :
    step s = .next (takeSample (s.quiet.taking rest)) := by
  simp [step, h, performMove]

/-! ### A transfer whose table no LOAD writes (42_admission.md R138) -/

theorem sparesTable_load {s : State} {t : Nat} {w : Word} {c : Channel} {thr : Throttle}
    (hw : decode w = .ok (.load c thr)) :
    (Move.command w).sparesTable s t = !(enabled s.par s.cfg c && tableOf s.par c == t) := by
  unfold Move.sparesTable
  simp only [hw]

theorem sparesTable_assertReset (s : State) (t : Nat) : Move.assertReset.sparesTable s t = false := rfl

/-- `u` is `k` deliveries into the transfer that an accepted SEND of `ch` in `s` has started: the resource is bound to the
channel's table and destination, that table is as it was in `s`, and a LOAD in progress is of another table. -/
structure Sending (s : State) (ch : Channel) (k : Nat) (u : State) : Prop where
  inv : BlockInv u
  par : u.par = s.par
  cfg : u.cfg = s.cfg
  inited : u.inited = true
  orEn : u.orEn = true
  orSrc : u.orSrc.toNat = tableOf s.par ch
  orDst : u.orDst = s.cfg.dstOf ch
  orLen : u.orLen.toNat = tableLen s.par
  rem : u.rem.toNat + k = tableLen s.par
  tbl : ∀ i, u.tbl.get ⟨tableOf s.par ch, i⟩ = s.tbl.get ⟨tableOf s.par ch, i⟩
  out : u.out = s.out ++ deliveries (s.cfg.dstOf ch) s.tbl (tableOf s.par ch) 0 k
  load : u.ldActive = true → tableOf s.par u.ldCh ≠ tableOf s.par ch

section

variable {s u v : State} {ch : Channel} {k : Nat}

theorem Sending.quiet (h : Sending s ch k u) : Sending s ch k u.quiet := { h with }
theorem Sending.taking (h : Sending s ch k u) (rest : List Move) : Sending s ch k (u.taking rest) := { h with }
theorem Sending.respond (h : Sending s ch k u) (st : Status) (f : Frame) : Sending s ch k (respond st f u) := { h with }
theorem Sending.takeSample (h : Sending s ch k u) : Sending s ch k (takeSample u) :=
  { h with inv := h.inv.takeSample }
theorem Sending.driveConfigPorts (h : Sending s ch k u) (q : CfgPorts) : Sending s ch k (driveConfigPorts q u) :=
  { h with }

theorem Sending.rem_ne_zero (h : Sending s ch k u) (hk : k < tableLen s.par) : u.rem ≠ 0 := by
  have hrem := h.rem
  bv_omega

/-- A micro-step writes to the table of the LOAD in progress, which is another one. -/
theorem Sending.loadStep (h : Sending s ch k u) (hv : loadStep u = .next v) : Sending s ch k v := by
  have hinv := loadStep_keeps_blockInv h.inv hv
  rcases loadStep_cases hv with ⟨-, rfl⟩ | ⟨ha, -, rfl⟩ | ⟨-, -, rfl⟩
  · exact h
  · refine { h with inv := hinv, tbl := fun i => ?_ }
    have hother : (⟨tableOf s.par ch, i⟩ : Addr) ≠ ⟨tableOf u.par u.ldCh, u.ldIdx.toNat⟩ := fun heq =>
      h.load ha (h.par ▸ (congrArg Addr.table heq).symm)
    exact (Memory.get_put_other h.inv.tbl_wf hother _).trans (h.tbl i)
  · exact { h with inv := hinv, load := nofun }

/-- A DRAIN delivers the next entry of the table, which is as it was when the transfer started (42_admission.md R135, R138). -/
theorem Sending.drainStep (h : Sending s ch k u) (hk : k < tableLen s.par) :
    ∃ v, drainStep u = .next v ∧ v.moves = u.moves ∧ Sending s ch (k + 1) v := by
  have hr := h.rem_ne_zero hk
  have hrem := h.rem
  have hcount := toNat_sub_one_add_one hr
  have hindex : u.orLen.toNat - u.rem.toNat = k := by have := h.orLen; omega
  refine ⟨_, drainStep_delivers h.orEn hr, rfl, { h with inv := h.inv.drained hr _ _, rem := ?_, out := ?_ }⟩
  · change (u.rem - 1).toNat + (k + 1) = tableLen s.par
    omega
  · rw [deliveries_succ, ← List.append_assoc, ← h.out, Nat.zero_add, hindex, h.orSrc, h.orDst]
    simp only [entryAt, h.tbl, emit_out]

/-- A command leaves the transfer: INIT and SEND are turned away, and an accepted LOAD is of another table. -/
theorem Sending.acceptCommand (h : Sending s ch k u) (hk : k < tableLen s.par) {w : Word}
    (hw : (Move.command w).sparesTable s (tableOf s.par ch) = true) :
    ∃ v, acceptCommand w u = .next v ∧ v.moves = u.moves ∧ Sending s ch k v := by
  rcases acceptCommand_cases w u with
      ⟨st, -, e⟩ | ⟨thr, -, e⟩ | ⟨-, hi, -, -⟩ | ⟨c, thr, hdec, hi, he, e⟩ | ⟨c, -, -, -, hr, -⟩
  · exact ⟨_, e, rfl, h.respond _ _⟩
  · exact ⟨_, e, rfl, h.respond _ _⟩
  · simp [h.inited] at hi
  · have hother : tableOf s.par c ≠ tableOf s.par ch := by
      rw [h.par, h.cfg] at he
      simpa [sparesTable_load hdec, he] using hw
    exact ⟨_, e, rfl, { h with inv := h.inv.beginLoad thr hi he, load := fun _ => hother }⟩
  · exact absurd hr (h.rem_ne_zero hk)

/-- A move that spares the table is made in some number of steps, and delivers one entry if it is a DRAIN and none if not. -/
theorem Sending.runSteps_move (h : Sending s ch k u) (hk : k < tableLen s.par) {m : Move} {rest : List Move}
    (hm : u.moves = m :: rest) (hspares : m.sparesTable s (tableOf s.par ch) = true) :
    ∃ n v, runSteps n u = .next v ∧ v.moves = rest ∧ Sending s ch (k + [m].count .drain) v := by
  have htaking := h.quiet.taking rest
  cases m with
  | command w =>
    obtain ⟨n, v, hrun, hmoves, ha, hv⟩ := runSteps_command_waits (fun _ _ hx => hx.quiet.loadStep) h hm
    obtain ⟨t, haccept, hrest, ht⟩ := (hv.quiet.taking rest).acceptCommand hk hspares
    exact ⟨n + 1, t, (runSteps_add hrun 1).trans (runSteps_one ((step_command hmoves ha).trans haccept)), hrest, ht⟩
  | advance =>
    obtain ⟨v, hv⟩ := exists_loadStep (u.quiet.taking rest)
    exact ⟨1, v, runSteps_one ((step_advance hm).trans hv), loadStep_moves hv, htaking.loadStep hv⟩
  | drain =>
    obtain ⟨v, hv, hrest, hsending⟩ := htaking.drainStep hk
    exact ⟨1, v, runSteps_one ((step_drain hm).trans hv), hrest, hsending⟩
  | drivePorts q => exact ⟨1, _, runSteps_one (step_drivePorts hm), rfl, htaking.driveConfigPorts q⟩
  | sample => exact ⟨1, _, runSteps_one (step_sample hm), rfl, htaking.takeSample⟩
  | assertReset => simp [sparesTable_assertReset] at hspares

/-- Moves that spare the table, with DRAIN moves that leave an entry of the transfer to deliver. -/
theorem Sending.runSteps_moves {ms rest : List Move} (h : Sending s ch k u)
    (hk : k + ms.count .drain < tableLen s.par) (hm : u.moves = ms ++ rest)
    (hspares : ∀ m ∈ ms, m.sparesTable s (tableOf s.par ch) = true) :
    ∃ n v, runSteps n u = .next v ∧ v.moves = rest ∧ Sending s ch (k + ms.count .drain) v := by
  induction ms generalizing k u with
  | nil => exact ⟨0, u, runSteps_zero u, hm, h⟩
  | cons m ms ih =>
    obtain ⟨hspare, hspares'⟩ := List.forall_mem_cons.1 hspares
    have hcount : k + (m :: ms).count .drain = k + [m].count .drain + ms.count .drain := by
      rw [← List.singleton_append, List.count_append, Nat.add_assoc]
    rw [hcount] at hk ⊢
    obtain ⟨n₁, v, hrun₁, hmoves, hv⟩ := h.runSteps_move (by omega) hm hspare
    obtain ⟨n₂, t, hrun₂, ht⟩ := ih hv hk hmoves hspares'
    exact ⟨n₁ + n₂, t, (runSteps_add hrun₁ n₂).trans hrun₂, ht⟩

/-- The state an accepted SEND leaves has the whole transfer before it (42_admission.md R131). -/
theorem Sending.start (h : BlockInv s) (ha : s.ldActive = false) (hi : s.inited = true)
    (he : enabled s.par s.cfg ch = true) (st : Status) (f : Frame) (rest : List Move) :
    Sending s ch 0 (Machine.respond st f (startTransfer ch (s.quiet.taking rest))) := by
  have ⟨⟨_, hgap, _⟩, _⟩ := h
  have hlen := toNat_ofNat_tableLen hgap
  exact {
    inv := ((h.quiet.taking rest).startTransfer hi he).respond st f
    par := rfl
    cfg := rfl
    inited := hi
    orEn := rfl
    orSrc := toNat_ofNat_tableOf _ _
    orDst := rfl
    orLen := hlen
    rem := hlen
    tbl := fun _ => rfl
    out := by simp [deliveries]
    load := fun hactive => by simp [ha] at hactive }

end

/-! ### The statements -/

/-- Settles O34: the step is `step_drain_delivers`, and the entry it reads is there by the invariant. -/
theorem drainDeliversOneEntry : Obligations.DrainDeliversOneEntry := by
  refine ⟨drainEnabled_iff, fun s rest h hm he hr => ?_⟩
  obtain ⟨htable, hindex⟩ := h.drainEntry_exists hr
  exact ⟨toNat_sub_one_add_one hr, htable, hindex, step_drain_delivers hm he hr⟩

/-- Settles O35: a transfer in flight is enabled by the invariant, so the step is `step_drain_delivers` at REM = 1. -/
theorem completionKeepsTheBinding : Obligations.CompletionKeepsTheBinding := by
  intro s rest h hm hr
  have hne : s.rem ≠ 0 := by simp [hr]
  obtain ⟨-, -, htransfer, -⟩ := h
  obtain ⟨hen, -⟩ := htransfer hne
  refine ⟨_, step_drain_delivers hm hen hne, ?_⟩
  simp [hr, hen, State.busy, State.idle, State.drainEnabled]

/-- Settles O31: the answer is `startTransfer`, whose table and length are those of the strategy. -/
theorem sendStartsTheTransfer : Obligations.SendStartsTheTransfer := by
  intro ch s hp hi hch hen hr
  have ⟨_, hgap, _⟩ := hp
  have hlen := toNat_ofNat_tableLen hgap
  refine ⟨_, (exec_send ch s).trans (execSend_accepts hi (enabled_iff.2 ⟨hch, hen⟩) hr), rfl, fun hs => ⟨?_, ?_⟩,
    fun hs => ⟨?_, ?_⟩, rfl⟩
  · simp [tableOf, hs]
  · exact hlen.trans (by simp [tableLen, hs])
  · simp [tableOf, hs]
  · exact hlen.trans (by simp [tableLen, hs])

/-- Settles O32: the busy check is the last of SEND, and an accepted transfer starts with the length of a table. -/
theorem busySendIsRejected : Obligations.BusySendIsRejected := by
  refine fun ch s hi he => ⟨fun hr => ?_, fun hr ⟨_, hgap, _⟩ => ?_⟩
  · exact (exec_send ch s).trans (execSend_busy hi he hr)
  · exact ⟨_, (exec_send ch s).trans (execSend_accepts hi he hr), rfl, ofNat_tableLen_ne_zero hgap⟩

/-- Settles O37: each clause takes the cases of `step_output` that its counts leave. -/
theorem remainingCountTransitions : Obligations.RemainingCountTransitions := by
  intro s t h hstep
  have ⟨⟨_, hgap, _⟩, _⟩ := h
  rcases step_output hstep with ⟨hrem, hout⟩ | ⟨hr, hrem, d, v, hout⟩ | ⟨hr, hrem, hout, hsend⟩ | ⟨hrem, hreset⟩
  · exact ⟨fun h0 hne => absurd (hrem.trans h0) hne, fun _ => .inl ⟨hrem, hout⟩, fun _ _ => .inl hout⟩
  · have hcount : t.rem.toNat + 1 = s.rem.toNat := hrem ▸ toNat_sub_one_add_one hr
    exact ⟨fun h0 => absurd h0 hr, fun _ => .inr (.inl ⟨hcount, by simp [hout]⟩), fun h0 => absurd h0 hr⟩
  · obtain ⟨ha, hcommand⟩ := hsend
    exact ⟨fun _ _ => ⟨ha, hrem ▸ toNat_ofNat_tableLen hgap, hout, hcommand⟩, fun hne => absurd hr hne,
      fun _ _ => .inl hout⟩
  · exact ⟨fun _ hne => absurd hrem hne, fun _ => .inr (.inr ⟨hrem, hreset⟩), fun _ _ => .inr hreset⟩

/-- Settles O40: the SEND starts the transfer, the moves between leave its last entry, and the last DRAIN delivers that. -/
theorem transferOfASparedTableDeliversIt : Obligations.TransferOfASparedTableDeliversIt := by
  intro s ch ms rest h ha hi he hr hspares hcount hm
  have hstart := Sending.start h ha hi he .ok 0 (ms ++ .drain :: rest)
  obtain ⟨n, u, hrun, hmoves, hu⟩ := hstart.runSteps_moves (by omega) rfl hspares
  obtain ⟨v, hdrain, hrest, hv⟩ := (hu.quiet.taking rest).drainStep (by omega)
  rw [Nat.zero_add, hcount] at hv
  have hdone := hv.rem
  refine ⟨1 + (n + 1), v, ?_, hrest, by bv_omega, hv.tbl, hv.out⟩
  calc runSteps (1 + (n + 1)) s
    _ = runSteps (n + 1) _ := runSteps_add (runSteps_one (step_send hm ha hi he hr)) _
    _ = runSteps 1 u := runSteps_add hrun 1
    _ = .next v := runSteps_one ((step_drain hmoves).trans hdrain)

end Sys2Proof.Machine

/-! SUPPORT. The proofs about 43_init.md: the four conditions of a valid configuration (R151), what an accepted INIT writes and
what it leaves (R152), and CFG after it (R154). -/

namespace Sys2Proof.Machine

/-! ### The four conditions (43_init.md R151) -/

theorem CfgPorts.enOf_iff {p : Params} {q : CfgPorts} {c : Channel} :
    q.enOf p c = true ↔ c.toNat < p.nch ∧ q.en.getLsbD c.toNat = true := by
  rw [portEn_enOf, Bool.and_eq_true, decide_eq_true_iff, and_comm]

/-- Condition (b): `cfg_en` is not 0 exactly when it has a bit of a channel of the instance. -/
theorem portEn_ne_zero_iff {p : Params} {q : CfgPorts} : portEn p q ≠ 0 ↔ ∃ c : Channel, q.enOf p c = true := by
  constructor
  · intro hne
    by_contra hnone
    simp only [not_exists, Bool.not_eq_true] at hnone
    refine hne (BitVec.eq_of_getLsbD_eq fun i hi => ?_)
    have hc : (BitVec.ofNat 4 i).toNat = i := by simpa using hi
    simpa [CfgPorts.enOf, hc] using hnone (BitVec.ofNat 4 i)
  · rintro ⟨c, hc⟩ hzero
    simp [CfgPorts.enOf, hzero] at hc

/-- Conditions (c) and (d), one at a time. -/
theorem masksValid_iff_conditions {p : Params} {q : CfgPorts} :
    masksValid p q = true ↔
      (∀ c : Channel, q.enOf p c = true → q.maskOf c ≠ 0) ∧
        ∀ a b : Channel, a ≠ b → q.enOf p a = true → q.enOf p b = true → q.maskOf a &&& q.maskOf b = 0 := by
  rw [masksValid_iff]
  constructor
  · intro h
    exact ⟨fun c hc => (h c (mem_allChannels c) hc).1,
      fun a b hab ha hb => (h a (mem_allChannels a) ha).2 b (mem_allChannels b) hb hab⟩
  · rintro ⟨hne, hdis⟩ a - ha
    exact ⟨hne a ha, fun b _ hb hab => hdis a b hab ha hb⟩

/-- `cfg_valid()` checks the masks in the level-multiplex strategy only. -/
theorem cfgValid_iff {p : Params} {q : CfgPorts} :
    cfgValid p q = true ↔
      q.speed ≠ 3 ∧ portEn p q ≠ 0 ∧ (p.strategy = .levelMux → masksValid p q = true) := by
  cases hs : p.strategy <;> simp [cfgValid, hs, and_assoc]

/-! ### What an accepted INIT writes (43_init.md R152) -/

theorem exec_init (s : State) : exec .init s = execInit s := rfl

/-- For a channel of the instance the latched record holds the port values. -/
theorem latchedCfg_of_lt_nch {p : Params} {c : Channel} (hc : c.toNat < p.nch) (q : CfgPorts) (g : CfgRecord) :
    (latchedCfg p q g).enOf c = q.en.getLsbD c.toNat ∧ (latchedCfg p q g).dstOf c = q.dstOf c ∧
      (p.strategy = .levelMux → (latchedCfg p q g).maskOf c = q.maskOf c) := by
  refine ⟨?_, ?_, fun hs => ?_⟩
  · rw [latchedCfg_enOf, if_pos hc]
  · rw [latchedCfg_dstOf, if_pos hc]
  · rw [latchedCfg_maskOf_levelMux hs, if_pos hc]

/-! ### CFG over one step (43_init.md R154) -/

theorem loadStep_cfg {s t : State} (h : loadStep s = .next t) : t.cfg = s.cfg := by
  rcases loadStep_cases h with ⟨-, rfl⟩ | ⟨-, -, rfl⟩ | ⟨-, -, rfl⟩ <;> rfl

theorem drainStep_cfg {s t : State} (h : drainStep s = .next t) : t.cfg = s.cfg := by
  rcases drainStep_cases h with ⟨-, rfl⟩ | ⟨-, -, rfl⟩ <;> rfl

/-- A command keeps CFG, or is an INIT accepted with INITED = 0. -/
theorem acceptCommand_cfg {w : Word} {s t : State} (h : acceptCommand w s = .next t) :
    t.cfg = s.cfg ∨ (s.inited = false ∧ t.cfg = latchedCfg s.par s.ports s.cfg) := by
  rcases acceptCommand_cases w s with
    ⟨st, -, e⟩ | ⟨thr, -, e⟩ | ⟨-, hi, -, e⟩ | ⟨ch, thr, -, -, -, e⟩ | ⟨ch, -, -, -, -, e⟩ <;>
    obtain rfl : _ = t := by simpa [e] using h
  case inr.inr.inl => exact .inr ⟨hi, rfl⟩
  all_goals exact .inl rfl

/-- A step keeps CFG, or accepts an INIT with INITED = 0, or is `rst`. -/
theorem step_cfg {s t : State} (h : step s = .next t) :
    t.cfg = s.cfg ∨ (s.inited = false ∧ t.cfg = latchedCfg s.par s.ports s.cfg) ∨
      (t.cfg = CfgRecord.zero ∧ ∃ rest, s.moves = .assertReset :: rest) := by
  rcases step_cases s with ⟨-, -, e⟩ | ⟨-, -, e⟩ | ⟨w, rest, -, -, e⟩ | ⟨w, rest, -, -, e⟩ | ⟨rest, -, e⟩ |
      ⟨rest, -, e⟩ | ⟨q, rest, -, e⟩ | ⟨rest, -, e⟩ | ⟨rest, hm, e⟩ <;> rw [e] at h
  · exact .inl (loadStep_cfg (s := s.quiet) h)
  · exact .inl (drainStep_cfg (s := s.quiet) h)
  · exact (acceptCommand_cfg h).imp_right .inl
  · exact .inl (loadStep_cfg (s := s.quiet) h)
  · exact .inl (loadStep_cfg (s := s.quiet.taking rest) h)
  · exact .inl (drainStep_cfg (s := s.quiet.taking rest) h)
  · cases h; exact .inl rfl
  · cases h; exact .inl rfl
  · cases h; exact .inr (.inr ⟨rfl, rest, hm⟩)

/-! ### The statements -/

/-- Settles O13: the conditions of `cfgValid_iff`, with `cfg_en` read channel by channel. -/
theorem configurationValidity : Obligations.ConfigurationValidity := by
  intro p q _
  simp only [cfgValid_iff, portEn_ne_zero_iff, masksValid_iff_conditions, CfgPorts.enOf_iff]
  refine and_congr_right fun _ => and_congr_right fun _ => ?_
  constructor
  · intro h
    exact ⟨fun hs c hc hen => (h hs).1 c ⟨hc, hen⟩,
      fun hs a b hab ha hb hea heb => (h hs).2 a b hab ⟨ha, hea⟩ ⟨hb, heb⟩⟩
  · rintro ⟨hne, hdis⟩ hs
    exact ⟨fun c ⟨hc, hen⟩ => hne hs c hc hen, fun a b hab ⟨ha, hea⟩ ⟨hb, heb⟩ => hdis hs a b hab ha hb hea heb⟩

/-- Settles O14: the answer is `latchConfig`, whose record holds the port values of every channel of the instance. -/
theorem initLatchesTheConfiguration : Obligations.InitLatchesTheConfiguration := by
  intro s _ hi hv
  refine ⟨_, (exec_init s).trans (execInit_accepts hi hv), rfl, rfl, fun c hc => latchedCfg_of_lt_nch hc _ _,
    Memory.get_nil, ?_⟩
  simp

/-- Settles O17: of the cases of `step_cfg` only the first has INITED = 1 and no `rst`. -/
theorem configurationIsConstant : Obligations.ConfigurationIsConstant := by
  intro s t hstep hi hmove
  have hno_rst : ¬∃ rest, s.moves = .assertReset :: rest := not_exists.2 hmove
  constructor
  · rcases step_cfg hstep with hkept | ⟨huninit, -⟩ | ⟨-, hrst⟩
    · exact hkept
    · simp [hi] at huninit
    · exact absurd hrst hno_rst
  · by_contra hcleared
    exact hno_rst (step_clears_inited hstep hi (Bool.eq_false_of_not_eq_true hcleared))

end Sys2Proof.Machine

/-! SUPPORT. The proofs about 60_exceptions.md: the one status of a rejection (R167), which writes no state (R161). -/

namespace Sys2Proof.Machine

/-! ### The checks of INIT, LOAD and SEND that turn a command away (60_exceptions.md R162, R163) -/

theorem enabled_eq_false_iff {p : Params} {g : CfgRecord} {c : Channel} :
    enabled p g c = false ↔ p.nch ≤ c.toNat ∨ g.en.getLsbD c.toNat = false := by
  rw [← Bool.not_eq_true, enabled_iff, not_and_or, Nat.not_lt, Bool.not_eq_true]

theorem execInit_rejects {s : State} (h : s.inited = true ∨ cfgValid s.par s.ports = false) :
    execInit s = .next (respond .configRejected 0 s) := by
  rcases execInit_cases s with ⟨hanswer, -⟩ | ⟨-, hi, hv⟩
  · exact hanswer
  · simp [hi, hv] at h

/-- The check of INITED comes before the check of the channel, so it has to hold here. -/
theorem execLoad_disabled {s : State} {ch : Channel} (hi : s.inited = true) (he : enabled s.par s.cfg ch = false)
    (thr : Throttle) : execLoad ch thr s = .next (respond .channelRejected 0 s) := by
  simp [execLoad, hi, he, reject]

/-- The check of the channel comes before the check of REM, so REM is arbitrary here. -/
theorem execSend_disabled {s : State} {ch : Channel} (hi : s.inited = true) (he : enabled s.par s.cfg ch = false) :
    execSend ch s = .next (respond .channelRejected 0 s) := by
  simp [execSend, hi, he, reject]

/-! ### The step of a rejected command (60_exceptions.md R161) -/

/-- Where the meaning of the presented command is a response without a frame, the step takes the move, answers that one word
and writes nothing else. -/
theorem step_rejectedCommand {s : State} {w code : Word} {rest : List Move} {i : Instr} {st : Status}
    (ha : s.ldActive = false) (hm : s.moves = .command w :: rest) (hw : decode w = .ok i)
    (hcode : responseWord st 0 = code)
    (hexec : exec i (s.quiet.taking rest) = .next (respond st 0 (s.quiet.taking rest))) :
    step s = .next { s with moves := rest, rsp := some code, responses := s.responses ++ [code] } := by
  rw [step_command hm ha, acceptCommand_legal hw, hexec, ← hcode]
  rfl

/-! ### The statement -/

/-- Settles O33: each command's first check that fails gives the status, and the step is that of a rejected command. The checks
read the state that has taken the move, whose INITED, CFG, ports and REM are those of `s`. -/
theorem rejectionPriority : Obligations.RejectionPriority := by
  intro s w rest ha hm rejectedWith
  refine ⟨?illegal, ?init, ?load, ?send⟩
  case illegal =>
    rintro ⟨e, hw⟩
    exact step_illegalCommand ha hm hw
  case init =>
    intro hw hcause
    exact step_rejectedCommand ha hm hw responseWord_config (execInit_rejects (s := s.quiet.taking rest) hcause)
  case load =>
    intro ch thr hw
    constructor
    · intro hi
      exact step_rejectedCommand ha hm hw responseWord_config
        (execLoad_uninitialised (s := s.quiet.taking rest) hi ch thr)
    · intro hi hch
      exact step_rejectedCommand ha hm hw responseWord_channel
        (execLoad_disabled (s := s.quiet.taking rest) hi (enabled_eq_false_iff.2 hch) thr)
  case send =>
    intro ch hw
    refine ⟨fun hi => ?_, fun hi hch => ?_, fun hi hlt hen hr => ?_⟩
    · exact step_rejectedCommand ha hm hw responseWord_config
        (execSend_uninitialised (s := s.quiet.taking rest) hi ch)
    · exact step_rejectedCommand ha hm hw responseWord_channel
        (execSend_disabled (s := s.quiet.taking rest) hi (enabled_eq_false_iff.2 hch))
    · exact step_rejectedCommand ha hm hw responseWord_busy
        (execSend_busy (s := s.quiet.taking rest) hi (enabled_iff.2 ⟨hlt, hen⟩) hr)

end Sys2Proof.Machine

/-! SUPPORT. The rest of the proofs about 30_encoding.md and 43_init.md: decoding and encoding are inverse (R65), the format of
every response word (R66), the command port (R60), the configuration ports (R73), and what INIT does not write (R152). -/

namespace Sys2Proof.Machine

/-! ### Every operation answers a next state (20_memory.md R44; 60_exceptions.md R161) -/

theorem exists_drainStep (s : State) : ∃ t, drainStep s = .next t := by
  cases hd : s.drainEnabled with
  | false => exact ⟨s, drainStep_disabled hd⟩
  | true =>
    obtain ⟨he, hr⟩ := (drainEnabled_iff s).1 hd
    exact ⟨_, drainStep_delivers he hr⟩

theorem exists_acceptCommand (w : Word) (s : State) : ∃ t, acceptCommand w s = .next t := by
  rcases acceptCommand_cases w s with
    ⟨_, -, e⟩ | ⟨_, -, e⟩ | ⟨-, -, -, e⟩ | ⟨_, _, -, -, -, e⟩ | ⟨_, -, -, -, -, e⟩ <;> exact ⟨_, e⟩

theorem exists_step (s : State) : ∃ t, step s = .next t := by
  rcases step_cases s with ⟨-, -, e⟩ | ⟨-, -, e⟩ | ⟨w, rest, -, -, e⟩ | ⟨w, rest, -, -, e⟩ | ⟨rest, -, e⟩ |
      ⟨rest, -, e⟩ | ⟨q, rest, -, e⟩ | ⟨rest, -, e⟩ | ⟨rest, -, e⟩ <;> rw [e]
  · exact exists_loadStep _
  · exact exists_drainStep _
  · exact exists_acceptCommand _ _
  · exact exists_loadStep _
  · exact exists_loadStep _
  · exact exists_drainStep _
  all_goals exact ⟨_, rfl⟩

/-- The meaning of a command is what the port makes of its word (30_encoding.md R63, R65). -/
theorem exec_eq_acceptCommand (i : Instr) (s : State) : exec i s = acceptCommand (encode i) s :=
  (acceptCommand_legal (decode_encode i) s).symm

/-- What a command leaves: CFG, unless it is an INIT, and what is not the command's (43_init.md R154). -/
theorem acceptCommand_leaves {w : Word} {s t : State} (h : acceptCommand w s = .next t) :
    (decode w = .ok .init ∨ t.cfg = s.cfg) ∧ t.par = s.par ∧ t.out = s.out ∧ t.samples = s.samples ∧
      t.moves = s.moves ∧ t.ports = s.ports := by
  rcases acceptCommand_cases w s with
    ⟨st, -, e⟩ | ⟨thr, -, e⟩ | ⟨hw, -, -, e⟩ | ⟨ch, thr, -, -, -, e⟩ | ⟨ch, -, -, -, -, e⟩ <;>
    obtain rfl : _ = t := by simpa [e] using h
  case inr.inr.inl => exact ⟨.inl hw, rfl, rfl, rfl, rfl, rfl⟩
  all_goals exact ⟨.inr rfl, rfl, rfl, rfl, rfl, rfl⟩

/-! ### The fields of a response word (30_encoding.md R66) -/

theorem responseWord_zeros (st : Status) (f : Frame) : (responseWord st f).extractLsb' 19 13 = 0 := by
  rw [responseWord, BitVec.extractLsb'_append_eq_of_le (by decide)]
  exact BitVec.extractLsb'_append_eq_left

theorem responseWord_status (st : Status) (f : Frame) : (responseWord st f).extractLsb' 16 3 = st.code := by
  rw [responseWord, BitVec.extractLsb'_append_eq_of_le (by decide)]
  exact BitVec.extractLsb'_append_eq_right

theorem responseWord_frame (st : Status) (f : Frame) : (responseWord st f).extractLsb' 0 16 = f :=
  BitVec.extractLsb'_append_eq_right

theorem Status.code_le (st : Status) : st.code.toNat ≤ 4 := by cases st <;> decide

/-! ### What a step answers -/

/-- From `s` to `t` one response is presented and joins the observation (00_scope.md R13). -/
def Answers (st : Status) (f : Frame) (s t : State) : Prop :=
  t.rsp = some (responseWord st f) ∧ t.responses = s.responses ++ [responseWord st f]

/-- From `s` to `t` nothing is presented and the observed responses stay. -/
def StaysQuiet (s t : State) : Prop := t.rsp = none ∧ t.responses = s.responses

theorem loadStep_answers {s t : State} (hq : s.rsp = none) (h : loadStep s = .next t) :
    StaysQuiet s t ∨ Answers .ok 0 s t := by
  rcases loadStep_cases h with ⟨-, rfl⟩ | ⟨-, -, rfl⟩ | ⟨-, -, rfl⟩
  · exact .inl ⟨hq, rfl⟩
  · exact .inl ⟨hq, rfl⟩
  · exact .inr ⟨rfl, rfl⟩

theorem drainStep_staysQuiet {s t : State} (hq : s.rsp = none) (h : drainStep s = .next t) : StaysQuiet s t := by
  rcases drainStep_cases h with ⟨-, rfl⟩ | ⟨-, -, rfl⟩ <;> exact ⟨hq, rfl⟩

/-- Every command but an accepted LOAD is answered at once, and only ENCODE with a frame. -/
theorem acceptCommand_answers {w : Word} {s t : State} (hq : s.rsp = none) (h : acceptCommand w s = .next t) :
    StaysQuiet s t ∨ (∃ st, Answers st 0 s t) ∨
      ∃ thr, decode w = .ok (.encode thr) ∧ Answers .ok (encodeFrame thr) s t := by
  rcases acceptCommand_cases w s with
    ⟨st, -, e⟩ | ⟨thr, hw, e⟩ | ⟨-, -, -, e⟩ | ⟨ch, thr, -, -, -, e⟩ | ⟨ch, -, -, -, -, e⟩ <;>
    obtain rfl : _ = t := by simpa [e] using h
  · exact .inr (.inl ⟨st, rfl, rfl⟩)
  · exact .inr (.inr ⟨thr, hw, rfl, rfl⟩)
  · exact .inr (.inl ⟨.ok, rfl, rfl⟩)
  · exact .inl ⟨hq, rfl⟩
  · exact .inr (.inl ⟨.ok, rfl, rfl⟩)

/-- A step answers nothing, or a status without a frame, or the frame of an ENCODE with status OK. -/
theorem step_answers {s t : State} (h : step s = .next t) :
    StaysQuiet s t ∨ (∃ st, Answers st 0 s t) ∨
      ∃ w rest thr, s.moves = .command w :: rest ∧ decode w = .ok (.encode thr) ∧
        Answers .ok (encodeFrame thr) s t := by
  rcases step_cases s with ⟨-, -, e⟩ | ⟨-, -, e⟩ | ⟨w, rest, hm, -, e⟩ | ⟨w, rest, -, -, e⟩ | ⟨rest, -, e⟩ |
      ⟨rest, -, e⟩ | ⟨q, rest, -, e⟩ | ⟨rest, -, e⟩ | ⟨rest, -, e⟩ <;> rw [e] at h
  · exact (loadStep_answers rfl h).imp_right fun ha => .inl ⟨.ok, ha⟩
  · exact .inl (drainStep_staysQuiet (s := s.quiet) rfl h)
  · obtain hquiet | hstatus | ⟨thr, hw, hanswer⟩ := acceptCommand_answers rfl h
    · exact .inl hquiet
    · exact .inr (.inl hstatus)
    · exact .inr (.inr ⟨w, rest, thr, hm, hw, hanswer⟩)
  · exact (loadStep_answers rfl h).imp_right fun ha => .inl ⟨.ok, ha⟩
  · exact (loadStep_answers rfl h).imp_right fun ha => .inl ⟨.ok, ha⟩
  · exact .inl (drainStep_staysQuiet (s := s.quiet.taking rest) rfl h)
  all_goals cases h; exact .inl ⟨rfl, rfl⟩

/-! ### The configuration ports (30_encoding.md R73)

Nothing but an INIT reads the ports, so another value on them commutes with every other operation. -/

theorem loadStep_driveConfigPorts (q : CfgPorts) {s t : State} (h : loadStep s = .next t) :
    loadStep (driveConfigPorts q s) = .next (driveConfigPorts q t) := by
  rcases loadStep_cases h with ⟨ha, rfl⟩ | ⟨ha, hk, rfl⟩ | ⟨ha, hk, rfl⟩
  · exact loadStep_idle (s := driveConfigPorts q _) ha
  · exact loadStep_write (s := driveConfigPorts q s) ha hk
  · exact loadStep_finish (s := driveConfigPorts q s) ha hk

theorem drainStep_driveConfigPorts (q : CfgPorts) {s t : State} (h : drainStep s = .next t) :
    drainStep (driveConfigPorts q s) = .next (driveConfigPorts q t) := by
  rcases drainStep_cases h with ⟨hd, rfl⟩ | ⟨he, hr, rfl⟩
  · exact drainStep_disabled (s := driveConfigPorts q _) hd
  · exact drainStep_delivers (s := driveConfigPorts q s) he hr

theorem execLoad_driveConfigPorts (q : CfgPorts) {ch : Channel} {thr : Throttle} {s t : State}
    (h : execLoad ch thr s = .next t) : execLoad ch thr (driveConfigPorts q s) = .next (driveConfigPorts q t) := by
  rcases execLoad_cases ch thr s with ⟨e, hi⟩ | ⟨e, hi, he⟩ | ⟨e, hi, he⟩ <;>
    obtain rfl : _ = t := by simpa [e] using h
  · exact execLoad_uninitialised (s := driveConfigPorts q s) hi ch thr
  · exact execLoad_disabled (s := driveConfigPorts q s) hi he thr
  · exact execLoad_accepts (s := driveConfigPorts q s) hi he thr

theorem execSend_driveConfigPorts (q : CfgPorts) {ch : Channel} {s t : State} (h : execSend ch s = .next t) :
    execSend ch (driveConfigPorts q s) = .next (driveConfigPorts q t) := by
  rcases execSend_cases ch s with ⟨e, hi⟩ | ⟨e, hi, he⟩ | ⟨e, hi, he, hr⟩ | ⟨e, hi, he, hr⟩ <;>
    obtain rfl : _ = t := by simpa [e] using h
  · exact execSend_uninitialised (s := driveConfigPorts q s) hi ch
  · exact execSend_disabled (s := driveConfigPorts q s) hi he
  · exact execSend_busy (s := driveConfigPorts q s) hi he hr
  · exact execSend_accepts (s := driveConfigPorts q s) hi he hr

/-- A command that is no INIT, or an INIT that is turned away since INITED = 1. -/
theorem acceptCommand_driveConfigPorts (q : CfgPorts) {w : Word} {s t : State}
    (hinit : decode w = .ok .init → s.inited = true) (h : acceptCommand w s = .next t) :
    acceptCommand w (driveConfigPorts q s) = .next (driveConfigPorts q t) := by
  cases hw : decode w with
  | error e =>
    rw [acceptCommand_illegal hw] at h ⊢
    cases h
    rfl
  | ok i =>
    rw [acceptCommand_legal hw] at h ⊢
    cases i with
    | init =>
      have hi := hinit hw
      rw [exec_init, execInit_rejects (.inl hi)] at h
      cases h
      exact execInit_rejects (s := driveConfigPorts q s) (.inl hi)
    | encode thr => cases h; rfl
    | load ch thr => exact execLoad_driveConfigPorts q h
    | send ch => exact execSend_driveConfigPorts q h

theorem step_withPorts (q : CfgPorts) {s t : State} (hdrive : ∀ q' rest, s.moves ≠ .drivePorts q' :: rest)
    (hinit : ∀ rest, s.moves = .command 0x10000000#32 :: rest → s.ldActive = true ∨ s.inited = true)
    (h : step s = .next t) : step (driveConfigPorts q s) = .next (driveConfigPorts q t) := by
  rcases step_cases s with ⟨hm, ha, e⟩ | ⟨hm, ha, e⟩ | ⟨w, rest, hm, ha, e⟩ | ⟨w, rest, hm, ha, e⟩ | ⟨rest, hm, e⟩ |
      ⟨rest, hm, e⟩ | ⟨q', rest, hm, e⟩ | ⟨rest, hm, e⟩ | ⟨rest, hm, e⟩ <;>
    rw [e] at h
  · have hsettle : step (driveConfigPorts q s) = loadStep (driveConfigPorts q s).quiet := by
      simp [step, hm, settle, ha]
    exact hsettle.trans (loadStep_driveConfigPorts q (s := s.quiet) h)
  · have hsettle : step (driveConfigPorts q s) = drainStep (driveConfigPorts q s).quiet := by
      simp [step, hm, settle, ha]
    exact hsettle.trans (drainStep_driveConfigPorts q (s := s.quiet) h)
  · refine (step_command (s := driveConfigPorts q s) hm ha).trans
      (acceptCommand_driveConfigPorts q (s := s.quiet.taking rest) (fun hw => ?_) h)
    obtain rfl := (decode_eq_init_iff w).1 hw
    simpa [ha] using hinit rest hm
  · exact (step_command_waits (s := driveConfigPorts q s) hm ha).trans (loadStep_driveConfigPorts q (s := s.quiet) h)
  · exact (step_advance (s := driveConfigPorts q s) hm).trans (loadStep_driveConfigPorts q (s := s.quiet.taking rest) h)
  · exact (step_drain (s := driveConfigPorts q s) hm).trans (drainStep_driveConfigPorts q (s := s.quiet.taking rest) h)
  · exact absurd hm (hdrive q' rest)
  · cases h
    exact step_sample (s := driveConfigPorts q s) hm
  · cases h
    exact step_assertReset (s := driveConfigPorts q s) hm

/-! ### The statements -/

/-- Settles O1: a word decodes to a command exactly when it is the command's encoding. -/
theorem decodeAndEncodeAgree : Obligations.DecodeAndEncodeAgree :=
  ⟨decode_encode, fun _ _ h => (decode_eq_ok_iff.1 h).symm⟩

/-- Settles O46: the operation of each step keeps `BlockInv`. -/
theorem stepKeepsTheInvariant : Obligations.StepKeepsTheInvariant :=
  fun _ _ hs h => step_keeps_blockInv hs h

/-- Settles O5: the fields of the one response word that `step_answers` names. -/
theorem responseWordsHaveTheirFormat : Obligations.ResponseWordsHaveTheirFormat := by
  intro s t h
  rcases step_answers h with hquiet | ⟨st, hrsp, hresp⟩ | ⟨w, rest, thr, hm, hw, hrsp, hresp⟩
  · exact .inl hquiet
  · refine .inr ⟨_, hrsp, hresp, responseWord_zeros st 0, ?_, fun hf => absurd (responseWord_frame st 0) hf⟩
    rw [responseWord_status]
    exact st.code_le
  · refine .inr ⟨_, hrsp, hresp, responseWord_zeros .ok _, ?_,
      fun _ => ⟨responseWord_status .ok _, w, rest, thr, hm, hw⟩⟩
    rw [responseWord_status]
    exact Status.code_le .ok

/-- Settles O15: above NCH the latched record has the values of the old one. -/
theorem initLeavesAbsentChannelsAlone : Obligations.InitLeavesAbsentChannelsAlone := by
  intro s _ hi hv
  refine ⟨_, (exec_init s).trans (execInit_accepts hi hv), fun c hc => ?_⟩
  have hn : ¬c.toNat < s.par.nch := Nat.not_lt.2 hc
  rw [respond_cfg, latchConfig_cfg, latchedCfg_enOf, latchedCfg_dstOf, if_neg hn, if_neg hn]
  refine ⟨rfl, rfl, ?_⟩
  cases hs : s.par.strategy
  · exact latchedCfg_maskOf_duty hs _ _ c
  · rw [latchedCfg_maskOf_levelMux hs, if_neg hn]

/-- Settles O20: another value on the ports commutes with the step. -/
theorem portsMatterOnlyAtInit : Obligations.PortsMatterOnlyAtInit := by
  intro s q hdrive hinit
  obtain ⟨t, ht⟩ := exists_step s
  rw [ht]
  exact step_withPorts q hdrive hinit ht

/-- Settles O4: the decoder is evaluated on the five words. -/
theorem writtenOutWordsDecode : Obligations.WrittenOutWordsDecode := by
  unfold Obligations.WrittenOutWordsDecode; decide

/-- Settles O6: a ready port accepts the word, and an accepted legal word is its command. -/
theorem stepRunsTheDecodedCommand : Obligations.StepRunsTheDecodedCommand :=
  fun s _ rest _ hm ha hw => (step_command hm ha).trans (acceptCommand_legal hw (s.quiet.taking rest))

/-- Settles O7: both steps are the LOAD's next micro-step, on the same state. -/
theorem commandWaitsForTheLoad : Obligations.CommandWaitsForTheLoad := by
  intro s w rest ha hm
  have hsame : s.quiet = s.quiet.taking (.command w :: rest) := by rw [← hm]; rfl
  rw [step_command_waits hm ha, hsame, step_advance (rest := .command w :: rest) rfl]
  rfl

/-- Settles O8: the meaning of a command is the acceptance of its word. -/
theorem everyCommandIsAnswered : Obligations.EveryCommandIsAnswered := by
  intro i s
  obtain ⟨t, ht⟩ := exists_acceptCommand (encode i) s
  obtain ⟨hcfg, hrest⟩ := acceptCommand_leaves ht
  refine ⟨t, (exec_eq_acceptCommand i s).trans ht, hcfg.imp_left fun hw => ?_, hrest⟩
  rw [decode_encode] at hw
  exact Except.ok.inj hw

/-- Settles O16: `latchConfig` has the old mask vector in the duty strategy. -/
theorem initWritesNoMaskInDuty : Obligations.InitWritesNoMaskInDuty := by
  intro s hs hi hv
  refine ⟨_, (exec_init s).trans (execInit_accepts hi hv), ?_⟩
  rw [respond_cfg, latchConfig_cfg, latchedCfg, hs]

end Sys2Proof.Machine

/-! SUPPORT. The rest of the proofs about 10_state.md, 20_memory.md and 70_reset_and_hazards.md: what may write the tables (R25,
R45, R47), what may write OUT (R30), the samples (R29), and the parameters (R8). -/

namespace Sys2Proof.Machine

/-! ### What a step does to the tables (10_state.md R25) -/

/-- From `s` to `t` the LOAD in progress has written its next entry (41_waveform_table.md R116). -/
def WritesEntry (s t : State) : Prop :=
  s.ldActive = true ∧ t.tbl = loadWrite s.par s.cfg s.ldCh s.ldFrame s.tbl s.ldIdx.toNat

theorem loadStep_tbl {s t : State} (h : loadStep s = .next t) : t.tbl = s.tbl ∨ WritesEntry s t := by
  rcases loadStep_cases h with ⟨-, rfl⟩ | ⟨ha, -, rfl⟩ | ⟨-, -, rfl⟩
  · exact .inl rfl
  · exact .inr ⟨ha, rfl⟩
  · exact .inl rfl

theorem drainStep_tbl {s t : State} (h : drainStep s = .next t) : t.tbl = s.tbl := by
  rcases drainStep_cases h with ⟨-, rfl⟩ | ⟨-, -, rfl⟩ <;> rfl

/-- A command leaves the tables, or is an INIT accepted with INITED = 0. -/
theorem acceptCommand_tbl {w : Word} {s t : State} (h : acceptCommand w s = .next t) :
    t.tbl = s.tbl ∨ (t.tbl = [] ∧ decode w = .ok .init ∧ s.inited = false) := by
  rcases acceptCommand_cases w s with
    ⟨st, -, e⟩ | ⟨thr, -, e⟩ | ⟨hw, hi, -, e⟩ | ⟨ch, thr, -, -, -, e⟩ | ⟨ch, -, -, -, -, e⟩ <;>
    obtain rfl : _ = t := by simpa [e] using h
  case inr.inr.inl => exact .inr ⟨rfl, hw, hi⟩
  all_goals exact .inl rfl

/-- A step leaves the tables, or zeroes them by `rst` or by an INIT, or writes the next entry of the LOAD in progress. -/
theorem step_tbl {s t : State} (h : step s = .next t) :
    t.tbl = s.tbl ∨
      (t.tbl = [] ∧ ((∃ rest, s.moves = .assertReset :: rest) ∨
        (s.inited = false ∧ ∃ rest, s.moves = .command 0x10000000#32 :: rest))) ∨
      WritesEntry s t := by
  rcases step_cases s with ⟨-, -, e⟩ | ⟨-, -, e⟩ | ⟨w, rest, hm, -, e⟩ | ⟨w, rest, -, -, e⟩ | ⟨rest, -, e⟩ |
      ⟨rest, -, e⟩ | ⟨q, rest, -, e⟩ | ⟨rest, -, e⟩ | ⟨rest, hm, e⟩ <;> rw [e] at h
  · exact (loadStep_tbl (s := s.quiet) h).imp_right .inr
  · exact .inl (drainStep_tbl (s := s.quiet) h)
  · obtain hkept | ⟨hzero, hw, hi⟩ := acceptCommand_tbl h
    · exact .inl hkept
    · obtain rfl := (decode_eq_init_iff w).1 hw
      exact .inr (.inl ⟨hzero, .inr ⟨hi, rest, hm⟩⟩)
  · exact (loadStep_tbl (s := s.quiet) h).imp_right .inr
  · exact (loadStep_tbl (s := s.quiet.taking rest) h).imp_right .inr
  · exact .inl (drainStep_tbl (s := s.quiet.taking rest) h)
  · cases h; exact .inl rfl
  · cases h; exact .inl rfl
  · cases h; exact .inr (.inl ⟨rfl, .inl ⟨rest, hm⟩⟩)

theorem get_loadWrite {m : Memory} (hm : m.wf) (p : Params) (g : CfgRecord) (c : Channel) (f : Frame) (i : Nat) (a : Addr) :
    (loadWrite p g c f m i).get a = if a = ⟨tableOf p c, i⟩ then loadedEntry p g c f i (m.get a) else m.get a := by
  rw [loadWrite, Memory.get_put hm]
  split_ifs with ha
  · rw [ha]
  · rfl

/-- One level-multiplex write changes no bit outside the channel's mask, in any entry (20_memory.md R51). -/
theorem loadWrite_and_not_channelBits {p : Params} (hs : p.strategy = .levelMux) {m : Memory} (hm : m.wf)
    (g : CfgRecord) (c : Channel) (f : Frame) (i : Nat) (a : Addr) :
    (loadWrite p g c f m i).get a &&& ~~~channelBits (g.maskOf c) = m.get a &&& ~~~channelBits (g.maskOf c) := by
  rw [get_loadWrite hm]
  split_ifs
  · rw [loadedEntry_levelMux hs, levelWord_and_not_channelBits]
  · rfl

/-! ### What a step does to OUT (10_state.md R30) -/

theorem drainStep_out {s t : State} (h : drainStep s = .next t) :
    t.out = s.out ∨ (s.rem ≠ 0 ∧
      t.out = s.out ++ [(s.orDst, entryAt s.tbl s.orSrc.toNat (s.orLen.toNat - s.rem.toNat))]) := by
  rcases drainStep_cases h with ⟨-, rfl⟩ | ⟨-, hr, rfl⟩
  · exact .inl rfl
  · exact .inr ⟨hr, rfl⟩

/-- A step leaves OUT, or empties it by `rst`, or delivers the next entry of the transfer in flight. -/
theorem step_out {s t : State} (h : step s = .next t) :
    t.out = s.out ∨ (∃ rest, s.moves = .assertReset :: rest ∧ t.out = []) ∨ (s.rem ≠ 0 ∧
      t.out = s.out ++ [(s.orDst, entryAt s.tbl s.orSrc.toNat (s.orLen.toNat - s.rem.toNat))]) := by
  rcases step_cases s with ⟨-, -, e⟩ | ⟨-, -, e⟩ | ⟨w, rest, hm, -, e⟩ | ⟨w, rest, -, -, e⟩ | ⟨rest, -, e⟩ |
      ⟨rest, -, e⟩ | ⟨q, rest, -, e⟩ | ⟨rest, -, e⟩ | ⟨rest, hm, e⟩ <;> rw [e] at h
  · exact .inl (loadStep_output (s := s.quiet) h).2
  · exact (drainStep_out (s := s.quiet) h).imp_right .inr
  · obtain ⟨-, -, hout, -⟩ := acceptCommand_leaves h
    exact .inl hout
  · exact .inl (loadStep_output (s := s.quiet) h).2
  · exact .inl (loadStep_output (s := s.quiet.taking rest) h).2
  · exact (drainStep_out (s := s.quiet.taking rest) h).imp_right .inr
  · cases h; exact .inl rfl
  · cases h; exact .inl rfl
  · cases h; exact .inr (.inl ⟨rest, hm, rfl⟩)

/-! ### The statements -/

/-- Settles O18: no operation of a step writes the parameters. -/
theorem parametersAreFixed : Obligations.ParametersAreFixed := fun _ _ h => step_par h

/-- Settles O38: a delivery is of a transfer in flight, which the invariant binds to an enabled channel. -/
theorem outputGoesToAnEnabledDestination : Obligations.OutputGoesToAnEnabledDestination := by
  intro s t h hstep
  rcases step_out hstep with hkept | hrst | ⟨hr, hout⟩
  · exact .inr (.inl hkept)
  · exact .inl hrst
  · obtain ⟨-, hindex⟩ := h.drainEntry_exists hr
    obtain ⟨-, -, htransfer, -⟩ := h
    obtain ⟨-, -, -, c, -, he, hsrc, hdst⟩ := htransfer hr
    exact .inr (.inr ⟨c, _, he, hindex, by rw [hout, hsrc, hdst, entryAt]⟩)

/-- Settles O53: the entry write of `step_tbl` is one write of the canonical memory, and in the level-multiplex strategy it
keeps every bit outside the mask. -/
theorem onlyInitAndLoadWriteTables : Obligations.OnlyInitAndLoadWriteTables := by
  intro s t h hstep
  refine (step_tbl hstep).imp_right (.imp_right fun ⟨ha, htbl⟩ => ⟨ha, fun a hne => ?_, fun hs a => ?_⟩)
  · rw [htbl, get_loadWrite h.tbl_wf, if_neg hne]
  · rw [htbl, loadWrite_and_not_channelBits hs h.tbl_wf]

/-- Settles O54: the read and write laws of the canonical memory. -/
theorem entryReadsItsLatestWrite : Obligations.EntryReadsItsLatestWrite :=
  fun _ t i v hwf => ⟨rfl, Memory.put_wf hwf ⟨t, i⟩ v, readEntry_writeEntry hwf t i v,
    fun _ _ hne => readEntry_writeEntry_other hwf hne v⟩

/-- Settles O55: a canonical memory lists exactly the entries that are not 0, in one order. -/
theorem equalReadsMeanEqualMemories : Obligations.EqualReadsMeanEqualMemories :=
  fun _ _ hm hm' h => Memory.ext_of_get hm hm' h

/-- Settles O47: the invariant reads neither the ports nor the moves. -/
theorem resetHasTheInvariant : Obligations.ResetHasTheInvariant :=
  fun _ q ms hp => ((blockInv_resetOf hp).driveConfigPorts q).taking ms

/-- Settles O50: each of the operations a step can make answers a next state. -/
theorem noStepFaults : Obligations.NoStepFaults := exists_step

/-- Settles O52: the step is `assertReset` on the state that has taken the move. -/
theorem resetLeavesTheHostAlone : Obligations.ResetLeavesTheHostAlone :=
  fun _ _ hm => ⟨_, step_assertReset hm, rfl, rfl, rfl, rfl, rfl⟩

/-- Settles O56: the step is `takeSample`, which shows BUSY as REM ≠ 0. -/
theorem sampleShowsTheOutputs : Obligations.SampleShowsTheOutputs := by
  intro s rest hm
  have hbusy : s.busy = decide (s.rem ≠ 0) := by
    rw [Bool.eq_iff_iff, State.busy, bne_iff_ne, decide_eq_true_iff]
  rw [step_sample hm, ← hbusy]
  rfl

end Sys2Proof.Machine

/-! SUPPORT. The rest of the proofs about 41_waveform_table.md: the steps of a LOAD (R100, R116), what a whole LOAD leaves (R106,
R115), the transfer that a LOAD does not race (R118), and what the entries mean on the lines (R121, R122). -/

namespace Sys2Proof.Machine

/-! ### One write of a LOAD -/

/-- A write repeated with the same index leaves what the first left: in the level-multiplex strategy it reads only bits that the
first one kept. -/
theorem loadedEntry_loadedEntry (p : Params) (g : CfgRecord) (c : Channel) (f : Frame) (i : Nat) (old : Entry) :
    loadedEntry p g c f i (loadedEntry p g c f i old) = loadedEntry p g c f i old := by
  cases hs : p.strategy with
  | duty => exact loadedEntry_duty_old hs ..
  | levelMux =>
    simp only [loadedEntry_levelMux hs]
    exact levelWord_congr (levelWord_and_not_channelBits p _ f i old) p f i

/-- The duty write: LONG for a frame bit 1, SHORT for a 0, the most significant bit first (41_waveform_table.md R102, R104). -/
theorem loadedEntry_duty_eq {p : Params} (hs : p.strategy = .duty) (g : CfgRecord) (c : Channel) (f : Frame) (b : Nat)
    (old : Entry) :
    loadedEntry p g c f b old =
      if f.getLsbD (15 - b) then (calOf p g.speed).2.setWidth 32 else (calOf p g.speed).1.setWidth 32 := by
  have hbit : protocolBit f b = f.getLsbD (15 - b) := rfl
  rw [loadedEntry, hs, ← hbit]
  cases hb : protocolBit f b <;> simp [dutyEntry, hb]

/-- In a speed class LONG is not SHORT (00_scope.md R8 CAL). -/
theorem short_ne_long {p : Params} (hp : p.calWf) {speed : BitVec 2} (hspeed : speed ≠ 3) :
    (calOf p speed).1.setWidth 32 ≠ (calOf p speed).2.setWidth 32 := by
  have hwidth {a b : BitVec 16} (hlt : a.toNat < b.toNat) : a.setWidth 32 ≠ b.setWidth 32 := by
    intro heq; bv_omega
  obtain ⟨⟨-, h0⟩, ⟨-, h1⟩, ⟨-, h2⟩⟩ := hp
  unfold calOf
  split_ifs with hs0 hs1 hs2
  · exact hwidth h0
  · exact hwidth h1
  · exact hwidth h2
  · bv_omega

theorem riseSlot_lt_fallSlot {p : Params} (h : p.edgesWf) (v : Bool) : riseSlot p v < fallSlot p v := by
  obtain ⟨h0, -, h1, -⟩ := h
  cases v
  · exact h0
  · exact h1

theorem fallSlot_lt {p : Params} (h : p.edgesWf) (v : Bool) : fallSlot p v < slotsPerBit := by
  obtain ⟨-, h0, -, h1⟩ := h
  cases v
  · exact Nat.lt_succ_of_le h0
  · exact Nat.lt_succ_of_le h1

/-- The channel's part of the SET half of a level-multiplex write. -/
theorem setHalf_levelWord_and (p : Params) (m : Half) (f : Frame) (i : Nat) (old : Entry) :
    setHalf (levelWord p m f i old) &&& m =
      if i % slotsPerBit = riseSlot p (protocolBit f (i / slotsPerBit)) then m else 0 := by
  rw [setHalf_levelWord, BitVec.and_or_distrib_right, BitVec.and_assoc]
  split_ifs <;> simp

/-- The channel's part of the CLR half of a level-multiplex write. -/
theorem clrHalf_levelWord_and (p : Params) (m : Half) (f : Frame) (i : Nat) (old : Entry) :
    clrHalf (levelWord p m f i old) &&& m =
      if i % slotsPerBit = fallSlot p (protocolBit f (i / slotsPerBit)) then m else 0 := by
  rw [clrHalf_levelWord, BitVec.and_or_distrib_right, BitVec.and_assoc]
  split_ifs <;> simp

/-! ### A whole LOAD (41_waveform_table.md R106, R115) -/

/-- A repeated LOAD changes nothing. -/
theorem loadTable_loadTable (p : Params) (g : CfgRecord) (c : Channel) (f : Frame) {m : Memory} (hm : m.wf) :
    loadTable p g c f (loadTable p g c f m) = loadTable p g c f m := by
  refine loadTable_congr (loadTable_wf p g c f hm) hm (fun a ha => ?_) fun i hi => ?_
  · rw [get_loadTable p g c f hm, if_neg (by omega)]
  · rw [get_loadTable p g c f hm, if_pos ⟨rfl, hi⟩, loadedEntry_loadedEntry]

theorem tableOf_duty {p : Params} (hs : p.strategy = .duty) (c : Channel) : tableOf p c = c.toNat := by
  simp [tableOf, hs]

theorem tableOf_levelMux {p : Params} (hs : p.strategy = .levelMux) (c : Channel) : tableOf p c = 0 := by
  simp [tableOf, hs]

theorem loadWrites_duty {p : Params} (hs : p.strategy = .duty) : loadWrites p = 16 := by simp [loadWrites, hs]

theorem loadWrites_levelMux {p : Params} (hs : p.strategy = .levelMux) : loadWrites p = 128 := by
  simp [loadWrites, hs, packetBits, slotsPerBit]

theorem get_loadTable_duty {p : Params} (hs : p.strategy = .duty) (g : CfgRecord) (c : Channel) (f : Frame) {m : Memory}
    (hm : m.wf) (t i : Nat) :
    (loadTable p g c f m).get ⟨t, i⟩ =
      if t = c.toNat ∧ i < 16 then loadedEntry p g c f i (m.get ⟨t, i⟩) else m.get ⟨t, i⟩ := by
  rw [get_loadTable p g c f hm, tableOf_duty hs, loadWrites_duty hs]

theorem get_loadTable_levelMux {p : Params} (hs : p.strategy = .levelMux) (g : CfgRecord) (c : Channel) (f : Frame)
    {m : Memory} (hm : m.wf) (t i : Nat) :
    (loadTable p g c f m).get ⟨t, i⟩ =
      if t = 0 ∧ i < 128 then levelWord p (g.maskOf c) f i (m.get ⟨t, i⟩) else m.get ⟨t, i⟩ := by
  rw [get_loadTable p g c f hm, loadedEntry_levelMux hs, tableOf_levelMux hs, loadWrites_levelMux hs]

/-- The channel's bits of the word `i` of a loaded table: SET at the rising sub-slot, CLR at the falling one (41_waveform_table.md
R111, R112). -/
theorem halves_loadTable {p : Params} (hs : p.strategy = .levelMux) (g : CfgRecord) (c : Channel) (f : Frame) {m : Memory}
    (hm : m.wf) {i : Nat} (hi : i < 128) :
    setHalf ((loadTable p g c f m).get ⟨0, i⟩) &&& g.maskOf c =
        (if i % 8 = riseSlot p (f.getLsbD (15 - i / 8)) then g.maskOf c else 0) ∧
      clrHalf ((loadTable p g c f m).get ⟨0, i⟩) &&& g.maskOf c =
        (if i % 8 = fallSlot p (f.getLsbD (15 - i / 8)) then g.maskOf c else 0) := by
  rw [get_loadTable_levelMux hs g c f hm, if_pos ⟨rfl, hi⟩]
  exact ⟨setHalf_levelWord_and .., clrHalf_levelWord_and ..⟩

/-- The same, by protocol bit and sub-slot. -/
theorem halves_loadTable_bit {p : Params} (hs : p.strategy = .levelMux) (g : CfgRecord) (c : Channel) (f : Frame)
    {m : Memory} (hm : m.wf) {b j : Nat} (hb : b < 16) (hj : j < 8) :
    setHalf ((loadTable p g c f m).get ⟨0, 8 * b + j⟩) &&& g.maskOf c =
        (if j = riseSlot p (f.getLsbD (15 - b)) then g.maskOf c else 0) ∧
      clrHalf ((loadTable p g c f m).get ⟨0, 8 * b + j⟩) &&& g.maskOf c =
        (if j = fallSlot p (f.getLsbD (15 - b)) then g.maskOf c else 0) := by
  have hhalves := halves_loadTable hs g c f hm (i := 8 * b + j) (by omega)
  rwa [show (8 * b + j) % 8 = j by omega, show (8 * b + j) / 8 = b by omega] at hhalves

theorem ite_eq_self_iff {k : Half} (hk : k ≠ 0) {P : Prop} [Decidable P] : (if P then k else 0) = k ↔ P := by
  split_ifs with hP
  · simp [hP]
  · simpa [hP] using hk.symm

/-- Where the edge sub-slots of the two bit values differ, the sub-slot of a 1 tells a 1. -/
theorem slot_true_eq_iff {slot : Bool → Nat} (h : slot true ≠ slot false) (v : Bool) : slot true = slot v ↔ v = true := by
  cases v <;> simp [h]

/-- The two pulse widths differ, so an edge does (00_scope.md R8). -/
theorem edges_differ {p : Params} (h : p.pulseWf) : p.rise1 ≠ p.rise0 ∨ p.fall1 ≠ p.fall0 := by omega

/-! ### A transfer that a LOAD does not race (41_waveform_table.md R118) -/

/-- The writes of a LOAD leave every entry of another table. -/
theorem entryAt_loadPrefix_other {p : Params} {c : Channel} {t : Nat} (ht : t ≠ tableOf p c) (g : CfgRecord) (f : Frame)
    {m : Memory} (hm : m.wf) (n i : Nat) : entryAt (loadPrefix p g c f m n) t i = entryAt m t i := by
  rw [entryAt, get_loadPrefix p g c f hm, if_neg (fun h => ht h.1), entryAt]

/-- A transfer of another table is delivered as it was before the LOAD. -/
theorem racedEntries_other {s : State} (hm : s.tbl.wf) {ch : Channel} (ht : s.orSrc.toNat ≠ tableOf s.par ch) (f : Frame)
    (ms : List Move) :
    (racedEntries s ch f 0 0 ms).map (fun v => (s.orDst, v)) =
      deliveries s.orDst s.tbl s.orSrc.toNat (s.orLen.toNat - s.rem.toNat) (min (ms.count .drain) s.rem.toNat) := by
  have hlen := length_racedEntries s ch f 0 (k := 0) (ms := ms)
  refine List.ext_getElem (by simpa [deliveries] using hlen) fun j hj _ => ?_
  obtain ⟨n, hn⟩ := getElem_racedEntries s ch f 0 (k := 0) (ms := ms) (j := j) (by simpa using hj)
  simp only [List.getElem_map, hn, deliveries, List.getElem_range, racedEntry, Nat.zero_add,
    entryAt_loadPrefix_other ht _ _ hm]

/-- With no transfer in flight nothing is delivered. -/
theorem racedEntries_idle {s : State} (hr : s.rem = 0) (ch : Channel) (f : Frame) (ms : List Move) :
    racedEntries s ch f 0 0 ms = [] :=
  List.eq_nil_of_length_eq_zero (by simp [length_racedEntries, hr])

/-! ### The lines of a level-multiplex transfer (41_waveform_table.md R122) -/

/-- One word on some lines: CLR before SET. -/
theorem applyWord_and (pins : Half) (w : Entry) (k : Half) :
    applyWord pins w &&& k = (pins &&& k) &&& ~~~(clrHalf w &&& k) ||| (setHalf w &&& k) := by
  refine BitVec.eq_of_getLsbD_eq fun i hi => ?_
  simp only [applyWord, BitVec.getLsbD_and, BitVec.getLsbD_or, BitVec.getLsbD_not, hi, decide_true, Bool.true_and]
  cases k.getLsbD i <;> simp

theorem applyWord_and_of_set {w : Entry} {k : Half} (hset : setHalf w &&& k = k) (pins : Half) :
    applyWord pins w &&& k = k := by
  rw [applyWord, BitVec.and_or_distrib_right, hset]
  refine BitVec.eq_of_getLsbD_eq fun i _ => ?_
  cases hk : k.getLsbD i <;> simp [hk]

theorem applyWord_and_of_clr {w : Entry} {k : Half} (hset : setHalf w &&& k = 0) (hclr : clrHalf w &&& k = k)
    (pins : Half) : applyWord pins w &&& k = 0 := by
  rw [applyWord_and, hset, hclr, BitVec.and_assoc, BitVec.and_not_self]
  simp

theorem applyWord_and_of_unnamed {w : Entry} {k : Half} (hset : setHalf w &&& k = 0) (hclr : clrHalf w &&& k = 0)
    (pins : Half) : applyWord pins w &&& k = pins &&& k := by
  have hnot : ~~~(0 : Half) = BitVec.allOnes 16 := rfl
  rw [applyWord_and, hset, hclr, hnot, BitVec.and_allOnes]
  exact BitVec.or_zero

theorem pinsAfter_append_singleton (pins : Half) (ws : List Entry) (w : Entry) :
    pinsAfter pins (ws ++ [w]) = applyWord (pinsAfter pins ws) w := by
  simp [pinsAfter]

/-- Lines that no word names keep their levels. -/
theorem pinsAfter_and_of_unnamed {pins k : Half} {ws : List Entry} (h : ∀ w ∈ ws, w &&& channelBits k = 0) :
    pinsAfter pins ws &&& k = pins &&& k := by
  induction ws generalizing pins with
  | nil => rfl
  | cons w ws ih =>
    obtain ⟨hw, hws⟩ := List.forall_mem_cons.1 h
    have hset : setHalf w &&& k = 0 := by simpa using congrArg setHalf hw
    have hclr : clrHalf w &&& k = 0 := by simpa using congrArg clrHalf hw
    exact (ih hws).trans (applyWord_and_of_unnamed hset hclr pins)

/-- The lines of a channel loaded with frame `f` are high after word `n`. -/
abbrev LineHigh (p : Params) (f : Frame) (n : Nat) : Prop :=
  n < 128 ∧ riseSlot p (f.getLsbD (15 - n / 8)) ≤ n % 8 ∧ n % 8 < fallSlot p (f.getLsbD (15 - n / 8))

/-- The levels of a loaded channel's lines before word `n` of its transfer: low at the start (41_waveform_table.md R122). -/
def levelBefore (p : Params) (k : Half) (f : Frame) : Nat → Half
  | 0 => 0
  | n + 1 => if LineHigh p f n then k else 0

/-- Away from the two edges of its protocol bit the level after word `n` is the level before it. -/
theorem levelBefore_succ_of_no_edge {p : Params} (h : p.edgesWf) (k : Half) (f : Frame) {n : Nat}
    (hrise : n < 128 → n % 8 ≠ riseSlot p (f.getLsbD (15 - n / 8)))
    (hfall : n < 128 → n % 8 ≠ fallSlot p (f.getLsbD (15 - n / 8))) :
    levelBefore p k f (n + 1) = levelBefore p k f n := by
  cases n with
  | zero =>
    rw [levelBefore, levelBefore, if_neg]
    have := hrise (by omega)
    omega
  | succ n =>
    have hiff : LineHigh p f (n + 1) ↔ LineHigh p f n := by
      by_cases hslot : (n + 1) % 8 = 0
      · have hlast := fallSlot_lt h (f.getLsbD (15 - n / 8))
        have : n % 8 = 7 := by omega
        constructor
        · rintro ⟨hn, hle, -⟩
          have := hrise hn
          omega
        · rintro ⟨-, -, hlt⟩
          simp only [slotsPerBit] at hlast
          omega
      · have hbit : (n + 1) / 8 = n / 8 := by omega
        simp only [LineHigh, hbit] at hrise hfall ⊢
        omega
    simp only [levelBefore, hiff]

/-- One word of a loaded table brings the channel's lines from the level before it to the level after it. -/
theorem applyWord_levelBefore {p : Params} (h : p.edgesWf) {k : Half} {f : Frame} {n : Nat} {pins : Half} {w : Entry}
    (hset : setHalf w &&& k = if n < 128 ∧ n % 8 = riseSlot p (f.getLsbD (15 - n / 8)) then k else 0)
    (hclr : clrHalf w &&& k = if n < 128 ∧ n % 8 = fallSlot p (f.getLsbD (15 - n / 8)) then k else 0)
    (hpins : pins &&& k = levelBefore p k f n) : applyWord pins w &&& k = levelBefore p k f (n + 1) := by
  have hlt := riseSlot_lt_fallSlot h (f.getLsbD (15 - n / 8))
  by_cases hrise : n < 128 ∧ n % 8 = riseSlot p (f.getLsbD (15 - n / 8))
  · have hhigh : LineHigh p f n := by omega
    rw [levelBefore, if_pos hhigh]
    exact applyWord_and_of_set (hset.trans (if_pos hrise)) pins
  rw [if_neg hrise] at hset
  by_cases hfall : n < 128 ∧ n % 8 = fallSlot p (f.getLsbD (15 - n / 8))
  · have hlow : ¬LineHigh p f n := by omega
    rw [levelBefore, if_neg hlow]
    exact applyWord_and_of_clr hset (hclr.trans (if_pos hfall)) pins
  · rw [if_neg hfall] at hclr
    rw [levelBefore_succ_of_no_edge h k f (fun hn hr => hrise ⟨hn, hr⟩) (fun hn hf => hfall ⟨hn, hf⟩), ← hpins]
    exact applyWord_and_of_unnamed hset hclr pins

/-- The first `n` words of a loaded table leave the channel's lines at the level before word `n`. -/
theorem pinsAfter_loadTable {p : Params} (hp : p.edgesWf) (hs : p.strategy = .levelMux) (g : CfgRecord) (c : Channel)
    (f : Frame) {m : Memory} (hm : m.wf) (hgap : ∀ i, 128 ≤ i → m.get ⟨0, i⟩ = 0) {pins : Half}
    (hlow : pins &&& g.maskOf c = 0) (n : Nat) :
    pinsAfter pins ((List.range n).map fun i => entryAt (loadTable p g c f m) 0 i) &&& g.maskOf c =
      levelBefore p (g.maskOf c) f n := by
  induction n with
  | zero => exact hlow
  | succ n ih =>
    rw [List.range_succ, List.map_append, List.map_singleton, pinsAfter_append_singleton]
    rcases Nat.lt_or_ge n 128 with hn | hn
    · obtain ⟨hset, hclr⟩ := halves_loadTable hs g c f hm hn
      exact applyWord_levelBefore hp (by simpa [entryAt, hn] using hset) (by simpa [entryAt, hn] using hclr) ih
    · have hzero : entryAt (loadTable p g c f m) 0 n = 0 := by
        rw [entryAt, get_loadTable_levelMux hs g c f hm, if_neg (by omega), hgap n hn]
      exact applyWord_levelBefore hp (by simp [hzero, Nat.not_lt.2 hn]) (by simp [hzero, Nat.not_lt.2 hn]) ih

/-! ### The wave of a duty transfer (41_waveform_table.md R121) -/

theorem dutyLevel_setWidth (d : BitVec 16) (tick : Nat) : dutyLevel (d.setWidth 32) tick = decide (tick < d.toNat) := by
  have hlow : (d.setWidth 32).extractLsb' 0 16 = d := by
    refine BitVec.eq_of_getLsbD_eq fun i hi => ?_
    simp [hi, show i < 32 by omega]
  rw [dutyLevel, hlow]

theorem dutyWave_cons (period : Nat) (d : Entry) (ds : List Entry) :
    dutyWave period (d :: ds) = (List.range period).map (dutyLevel d) ++ dutyWave period ds := rfl

/-- A period of an entry that fits in it has as many high ticks as the entry says. -/
theorem count_true_period {d : BitVec 16} {period : Nat} (h : d.toNat ≤ period) :
    ((List.range period).map (dutyLevel (d.setWidth 32))).count true = d.toNat := by
  have hcount (n : Nat) : ((List.range n).map (dutyLevel (d.setWidth 32))).count true = min n d.toNat := by
    induction n with
    | zero => simp
    | succ n ih =>
      rw [List.range_succ, List.map_append, List.count_append, ih, List.map_singleton, dutyLevel_setWidth]
      by_cases hlt : n < d.toNat
      · simp [hlt]; omega
      · simp [hlt]; omega
  rw [hcount, Nat.min_eq_right h]

theorem getElem?_dutyWave {period k : Nat} (hk : k < period) (ds : List (BitVec 16)) {j : Nat} (hj : j < ds.length) :
    (dutyWave period (ds.map (BitVec.setWidth 32)))[j * period + k]? = some (decide (k < ds[j].toNat)) := by
  induction ds generalizing j with
  | nil => simp at hj
  | cons d ds ih =>
    rw [List.map_cons, dutyWave_cons]
    cases j with
    | zero => rw [List.getElem?_append_left (by simpa using hk)]; simp [hk, dutyLevel_setWidth]
    | succ j =>
      have hindex : (j + 1) * period + k = period + (j * period + k) := by rw [Nat.succ_mul]; omega
      rw [List.getElem?_append_right (by simp [hindex]), List.length_map, List.length_range, hindex,
        Nat.add_sub_cancel_left, List.getElem_cons_succ]
      exact ih (by simpa using hj)

theorem count_true_dutyWave {period : Nat} {ds : List (BitVec 16)} (h : ∀ d ∈ ds, d.toNat ≤ period) :
    (dutyWave period (ds.map (BitVec.setWidth 32))).count true = (ds.map BitVec.toNat).sum := by
  induction ds with
  | nil => rfl
  | cons d ds ih =>
    obtain ⟨hd, hds⟩ := List.forall_mem_cons.1 h
    rw [List.map_cons, dutyWave_cons, List.count_append, count_true_period hd, ih hds, List.map_cons, List.sum_cons]

/-! ### The statements -/

/-- Settles O23: the write step is one write of the canonical memory; the finish is `finishLoad`. -/
theorem loadMicroSteps : Obligations.LoadMicroSteps := by
  intro s rest h ha
  have hadvance : step { s with moves := .advance :: rest } = loadStep (s.quiet.taking rest) := step_advance rfl
  rw [hadvance]
  refine ⟨fun hk => ⟨_, loadStep_write (s := s.quiet.taking rest) ha hk, rfl, ?_, fun a hne => ?_, fun hs => ?_,
    fun hs => ?_⟩, fun hk => ?_⟩
  · have hK := loadWrites_le s.par
    change (s.ldIdx + 1).toNat = s.ldIdx.toNat + 1
    bv_omega
  · exact (get_loadWrite h.tbl_wf ..).trans (if_neg hne)
  · have ht := tableOf_duty hs s.ldCh
    exact (get_loadWrite h.tbl_wf ..).trans ((if_pos (by rw [← ht]; rfl)).trans (loadedEntry_duty_eq hs ..))
  · have ht := tableOf_levelMux hs s.ldCh
    exact (get_loadWrite h.tbl_wf ..).trans ((if_pos (by rw [← ht]; rfl)).trans (loadedEntry_levelMux hs ..))
  · exact loadStep_finish (s := s.quiet.taking rest) ha hk.ge

/-- Settles O24: each of the sixteen writes leaves LONG or SHORT, which differ. -/
theorem dutyTableAfterLoad : Obligations.DutyTableAfterLoad := by
  intro p g c thr m hp hs hspeed hm f m'
  have ⟨_, _, hcal, _⟩ := hp
  have hloaded : ∀ b < 16, m'.get ⟨c.toNat, b⟩ =
      if f.getLsbD (15 - b) then (calOf p g.speed).2.setWidth 32 else (calOf p g.speed).1.setWidth 32 := by
    intro b hb
    rw [get_loadTable_duty hs g c f hm, if_pos ⟨rfl, hb⟩, loadedEntry_duty_eq hs]
  refine ⟨hloaded, fun i hi => ?_, fun t i ht => ?_, ?_, loadTable_loadTable p g c f hm, fun b hb => ?_⟩
  · rw [get_loadTable_duty hs g c f hm, if_neg (by omega)]
  · rw [get_loadTable_duty hs g c f hm, if_neg (fun h => ht h.1)]
  · rw [encodeFrame_mask]
  · rw [hloaded b hb]
    cases f.getLsbD (15 - b) <;> simp [short_ne_long hcal hspeed]

/-- Settles O25: the channel's bits of each word are those of `halves_loadTable_bit`; the other bits and the other words are not
written. -/
theorem levelTableAfterLoad : Obligations.LevelTableAfterLoad := by
  intro p g c thr m hp hs hmask hm f k m'
  have ⟨_, _, _, hedges, hpulse⟩ := hp
  have hhalves {b j : Nat} (hb : b < 16) (hj : j < 8) := halves_loadTable_bit hs g c f hm hb hj
  refine ⟨fun b hb => ?_, loadTable_and_not_channelBits hs g c f hm, fun t i hti => ?_, loadTable_loadTable p g c f hm,
    fun b hb hne => ?_, fun b hb hne => ?_, edges_differ hpulse⟩
  · exact ⟨_, _, riseSlot_lt_fallSlot hedges _, fallSlot_lt hedges _, rfl, rfl, fun j hj => hhalves hb hj⟩
  · rw [get_loadTable_levelMux hs g c f hm, if_neg (by omega)]
  · rw [(hhalves hb (by omega)).1, ite_eq_self_iff hmask]
    exact (slot_true_eq_iff (slot := riseSlot p) hne _).symm
  · rw [(hhalves hb (by omega)).2, ite_eq_self_iff hmask]
    exact (slot_true_eq_iff (slot := fallSlot p) hne _).symm

/-- Settles O28: the LOAD writes no entry that the transfer delivers, so each is the one before the LOAD. -/
theorem raceFreeLoadLeavesTheTransfer : Obligations.RaceFreeLoadLeavesTheTransfer := by
  intro s ch thr ms rest h ha hi he hfree hms hm
  obtain ⟨r, hrun⟩ := runSteps_load h thr ha hi he hms rest
  rw [← hm] at hrun
  have hlen : (racedEntries s ch (encodeFrame thr) 0 0 ms).length = min (ms.count .drain) s.rem.toNat :=
    length_racedEntries ..
  refine ⟨_, _, hrun, rfl, ?_, ?_⟩
  · rw [← hlen]
    exact toNat_sub_ofNat (by omega)
  · refine congrArg (s.out ++ ·) ?_
    rcases hfree with hr | ⟨hs, hsrc⟩
    · simp [racedEntries_idle hr, deliveries, hr]
    · have hother : s.orSrc.toNat ≠ tableOf s.par ch := fun heq =>
        hsrc (BitVec.eq_of_toNat_eq (heq.trans (tableOf_duty hs ch)))
      exact racedEntries_other h.tbl_wf hother _ ms

/-- Settles O44: the lines follow the channel's bits word by word. -/
theorem loadedChannelPulsesOnItsLines : Obligations.LoadedChannelPulsesOnItsLines := by
  refine ⟨fun p g c f m pins n hp hs hm hgap hlow _ => ?_, fun pins k ws h => pinsAfter_and_of_unnamed h⟩
  have ⟨_, _, _, hedges, _⟩ := hp
  exact pinsAfter_loadTable hedges hs g c f hm hgap hlow (n + 1)

/-- Settles O45: the periods stand one after the other, and each is high below its threshold. -/
theorem dutyWaveIsHighForTheEntry : Obligations.DutyWaveIsHighForTheEntry :=
  fun _ ds _ _ hle hk hj => ⟨getElem?_dutyWave hk ds hj, count_true_dutyWave hle⟩

/-- Settles O21: an accepted LOAD is `beginLoad`. -/
theorem loadIsAccepted : Obligations.LoadIsAccepted :=
  fun _ thr _ hi hch hen => execLoad_accepts hi (enabled_iff.2 ⟨hch, hen⟩) thr

end Sys2Proof.Machine

/-! SUPPORT. The rest of the proofs about 42_admission.md: the moves with no enabled step (R135), the transfer with no LOAD word
presented (R138), the end of a LOAD and of a transfer left alone (R137), and the safe pattern (70_reset_and_hazards.md R189). -/

namespace Sys2Proof.Machine

/-! ### A transfer with no LOAD word presented (42_admission.md R138) -/

/-- A LOAD comes to be in progress by an accepted LOAD word only (41_waveform_table.md R100). -/
theorem acceptCommand_ldActive {w : Word} {s t : State} (h : acceptCommand w s = .next t) :
    t.ldActive = s.ldActive ∨ ∃ ch thr, decode w = .ok (.load ch thr) := by
  rcases acceptCommand_cases w s with
    ⟨st, -, e⟩ | ⟨thr, -, e⟩ | ⟨-, -, -, e⟩ | ⟨ch, thr, hw, -, -, e⟩ | ⟨ch, -, -, -, -, e⟩ <;>
    obtain rfl : _ = t := by simpa [e] using h
  case inr.inr.inr.inl => exact .inr ⟨ch, thr, hw⟩
  all_goals exact .inl rfl

theorem loadsNothing_load {w : Word} {ch : Channel} {thr : Throttle} (hw : decode w = .ok (.load ch thr)) :
    (Move.command w).loadsNothing = false := by
  unfold Move.loadsNothing
  simp only [hw]

theorem loadsNothing_assertReset : Move.assertReset.loadsNothing = false := rfl

/-- A move that loads nothing spares every table. -/
theorem sparesTable_of_loadsNothing {m : Move} (h : m.loadsNothing = true) (s : State) (t : Nat) :
    m.sparesTable s t = true := by
  cases m with
  | command w =>
    cases hw : decode w with
    | error e => unfold Move.sparesTable; simp only [hw]
    | ok i =>
      cases i with
      | load c thr => simp [loadsNothing_load hw] at h
      | _ => unfold Move.sparesTable; simp only [hw]
  | assertReset => simp [loadsNothing_assertReset] at h
  | _ => rfl

section

variable {s u : State} {ch : Channel} {k : Nat} {m : Move} {rest : List Move}

/-- With no LOAD in progress a move that spares the table is one step. -/
theorem Sending.step_move (h : Sending s ch k u) (ha : u.ldActive = false) (hk : k < tableLen s.par)
    (hm : u.moves = m :: rest) (hspares : m.sparesTable s (tableOf s.par ch) = true) :
    ∃ v, step u = .next v ∧ v.moves = rest ∧ Sending s ch (k + [m].count .drain) v := by
  have htaking := h.quiet.taking rest
  cases m with
  | command w =>
    obtain ⟨v, haccept, hrest, hv⟩ := htaking.acceptCommand hk hspares
    exact ⟨v, (step_command hm ha).trans haccept, hrest, hv⟩
  | advance => exact ⟨_, (step_advance hm).trans (loadStep_idle (s := u.quiet.taking rest) ha), rfl, htaking⟩
  | drain =>
    obtain ⟨v, hv, hrest, hsending⟩ := htaking.drainStep hk
    exact ⟨v, (step_drain hm).trans hv, hrest, hsending⟩
  | drivePorts q => exact ⟨_, step_drivePorts hm, rfl, htaking.driveConfigPorts q⟩
  | sample => exact ⟨_, step_sample hm, rfl, htaking.takeSample⟩
  | assertReset => simp [sparesTable_assertReset] at hspares

/-- A move that loads nothing brings no LOAD into progress. -/
theorem step_loadsNothing_ldActive {v : State} (hm : u.moves = m :: rest) (ha : u.ldActive = false)
    (hload : m.loadsNothing = true) (h : step u = .next v) : v.ldActive = false := by
  cases m with
  | command w =>
    rw [step_command hm ha] at h
    obtain hkept | ⟨c, thr, hw⟩ := acceptCommand_ldActive h
    · exact hkept.trans ha
    · simp [loadsNothing_load hw] at hload
  | advance => rw [step_advance hm, loadStep_idle (s := u.quiet.taking rest) ha] at h; cases h; exact ha
  | drain =>
    rw [step_drain hm] at h
    rcases drainStep_cases h with ⟨-, rfl⟩ | ⟨-, -, rfl⟩ <;> exact ha
  | drivePorts q => rw [step_drivePorts hm] at h; cases h; exact ha
  | sample => rw [step_sample hm] at h; cases h; exact ha
  | assertReset => rw [step_assertReset hm] at h; cases h; rfl

/-- With INITED = 1 and no LOAD in progress only `rst` writes the tables (10_state.md R25). -/
theorem step_loadsNothing_tbl {v : State} (hm : u.moves = m :: rest) (ha : u.ldActive = false) (hi : u.inited = true)
    (hload : m.loadsNothing = true) (h : step u = .next v) : v.tbl = u.tbl := by
  rcases step_tbl h with hkept | ⟨-, ⟨rest', hrst⟩ | ⟨huninit, -⟩⟩ | ⟨hactive, -⟩
  · exact hkept
  · obtain ⟨rfl, -⟩ := List.cons.inj (hm.symm.trans hrst)
    simp [loadsNothing_assertReset] at hload
  · simp [hi] at huninit
  · simp [ha] at hactive

/-- Moves that load nothing are one step each, and leave the whole memory. -/
theorem Sending.runSteps_loadsNothing {ms : List Move} (h : Sending s ch k u) (ha : u.ldActive = false)
    (hk : k + ms.count .drain < tableLen s.par) (hm : u.moves = ms ++ rest) (hloads : ∀ m ∈ ms, m.loadsNothing = true) :
    ∃ v, runSteps ms.length u = .next v ∧ v.moves = rest ∧ v.tbl = u.tbl ∧ Sending s ch (k + ms.count .drain) v := by
  induction ms generalizing k u with
  | nil => exact ⟨u, runSteps_zero u, hm, rfl, h⟩
  | cons m ms ih =>
    obtain ⟨hload, hloads'⟩ := List.forall_mem_cons.1 hloads
    have hcount : k + (m :: ms).count .drain = k + [m].count .drain + ms.count .drain := by
      rw [← List.singleton_append, List.count_append, Nat.add_assoc]
    rw [hcount] at hk ⊢
    obtain ⟨v, hstep, hmoves, hv⟩ := h.step_move ha (by omega) hm (sparesTable_of_loadsNothing hload s _)
    have hva := step_loadsNothing_ldActive hm ha hload hstep
    obtain ⟨t, hrun, hrest, htbl, ht⟩ := ih hv hva hk hmoves hloads'
    exact ⟨t, (runSteps_succ hstep _).trans hrun, hrest,
      htbl.trans (step_loadsNothing_tbl hm ha h.inited hload hstep), ht⟩

end

/-! ### A LOAD left alone (41_waveform_table.md R116; 42_admission.md R137) -/

theorem BlockInv.ldIdx_le {s : State} (h : BlockInv s) (ha : s.ldActive = true) : s.ldIdx.toNat ≤ loadWrites s.par := by
  obtain ⟨-, -, -, -, -, -, -, hload, -, -⟩ := h
  obtain ⟨-, -, hle, -⟩ := hload ha
  exact hle

/-- The LOAD in progress makes its next micro-step when no move is given, and while a command waits. -/
theorem step_load_continues {s : State} (hm : s.moves = [] ∨ ∃ w rest, s.moves = .command w :: rest)
    (ha : s.ldActive = true) : step s = loadStep s.quiet := by
  rcases hm with hm | ⟨w, rest, hm⟩
  · simp [step, hm, settle, ha]
  · exact step_command_waits hm ha

/-- The writes from index 0 on are those of `loadPrefix`. -/
theorem foldl_loadWrite_range (p : Params) (g : CfgRecord) (c : Channel) (f : Frame) (m : Memory) (n : Nat) :
    (List.range' 0 n).foldl (loadWrite p g c f) m = loadPrefix p g c f m n := by
  induction n with
  | zero => rfl
  | succ n ih => rw [List.range'_1_concat, List.foldl_append, ih, Nat.zero_add]; rfl

/-- `s` after `n` more micro-steps of the LOAD in progress, each of which wrote an entry. -/
def loadWritten (s : State) (n : Nat) : State :=
  { s with
    tbl := (List.range' s.ldIdx.toNat n).foldl (loadWrite s.par s.cfg s.ldCh s.ldFrame) s.tbl
    ldIdx := s.ldIdx + BitVec.ofNat 8 n
    rsp := if n = 0 then s.rsp else none }

theorem toNat_ldIdx_add {s : State} {n : Nat} (hn : s.ldIdx.toNat + n ≤ loadWrites s.par) :
    (s.ldIdx + BitVec.ofNat 8 n).toNat = s.ldIdx.toNat + n := by
  have hK := loadWrites_le s.par
  have hsmall : (BitVec.ofNat 8 n).toNat = n := toNat_ofNat_loadIdx (p := s.par) (by omega)
  rw [BitVec.toNat_add, hsmall, Nat.mod_eq_of_lt (by omega)]

theorem runSteps_loadWritten {s : State} (hm : s.moves = [] ∨ ∃ w rest, s.moves = .command w :: rest)
    (ha : s.ldActive = true) {n : Nat} (hn : s.ldIdx.toNat + n ≤ loadWrites s.par) :
    runSteps n s = .next (loadWritten s n) := by
  induction n with
  | zero => simp [loadWritten]
  | succ n ih =>
    have hidx := toNat_ldIdx_add (s := s) (n := n) (by omega)
    have hlt : (loadWritten s n).quiet.ldIdx.toNat < loadWrites (loadWritten s n).quiet.par := by
      simp only [quiet_ldIdx, quiet_par, loadWritten, hidx]; omega
    have hstep : step (loadWritten s n) = .next (loadWritten s (n + 1)) := by
      rw [step_load_continues (s := loadWritten s n) hm ha, loadStep_write (s := (loadWritten s n).quiet) ha hlt]
      simp only [loadWritten, State.quiet, hidx, List.range'_1_concat, List.foldl_append, List.foldl_cons,
        List.foldl_nil, BitVec.ofNat_add, BitVec.add_assoc]
      rfl
    exact (runSteps_add (ih (by omega)) 1).trans (runSteps_one hstep)

/-- A LOAD left alone writes its remaining entries and answers, in a step each. -/
theorem runSteps_finishes_load {s : State} (hm : s.moves = [] ∨ ∃ w rest, s.moves = .command w :: rest)
    (ha : s.ldActive = true) {n : Nat} (hn : s.ldIdx.toNat + n = loadWrites s.par) :
    runSteps (n + 1) s = .next (finishLoad (loadWritten s n).quiet) := by
  have hend : loadWrites (loadWritten s n).quiet.par ≤ (loadWritten s n).quiet.ldIdx.toNat := by
    simp only [quiet_ldIdx, quiet_par, loadWritten, toNat_ldIdx_add hn.le, hn]; exact le_rfl
  exact (runSteps_add (runSteps_loadWritten hm ha hn.le) 1).trans (runSteps_one
    ((step_load_continues (s := loadWritten s n) hm ha).trans (loadStep_finish (s := (loadWritten s n).quiet) ha hend)))

/-! ### A transfer left alone (42_admission.md R137) -/

/-- With no move given and no LOAD in progress the transfer in flight delivers its remaining entries and the block is Idle. -/
theorem BlockInv.runSteps_settles {s : State} (h : BlockInv s) (hm : s.moves = []) (ha : s.ldActive = false) :
    ∃ t, runSteps s.rem.toNat s = .next t ∧ Quiescent t ∧ t.rem = 0 ∧ t.moves = [] ∧ t.tbl = s.tbl ∧
      t.responses = s.responses ∧
      t.out = s.out ++ deliveries s.orDst s.tbl s.orSrc.toNat (s.orLen.toNat - s.rem.toNat) s.rem.toNat := by
  by_cases hr : s.rem = 0
  · exact ⟨s, by simp [hr], ⟨ha, .inl hr⟩, hr, hm, rfl, rfl, by simp [hr, deliveries]⟩
  · obtain ⟨-, hle, -⟩ := h.rem_range hr
    obtain ⟨-, -, htransfer, -⟩ := h
    obtain ⟨hen, -⟩ := htransfer hr
    obtain ⟨r, hrun⟩ := runSteps_settles_drains hm ha hen hle le_rfl
    have hdone : s.rem - BitVec.ofNat 16 s.rem.toNat = 0 := by simp
    exact ⟨_, hrun, ⟨ha, .inl hdone⟩, hdone, hm, rfl, rfl, rfl⟩

/-- An accepted LOAD with the next command already presented: that command waits for the K + 1 micro-steps, and finds the loaded
table (30_encoding.md R60; 41_waveform_table.md R116, R117). -/
theorem runSteps_load_then_command {s : State} {ch : Channel} {thr : Throttle} {w : Word} {rest : List Move}
    (hm : s.moves = .command (encode (.load ch thr)) :: .command w :: rest) (ha : s.ldActive = false)
    (hi : s.inited = true) (he : enabled s.par s.cfg ch = true) :
    runSteps (loadWrites s.par + 1 + 1) s = .next { s with
      tbl := loadTable s.par s.cfg ch (encodeFrame thr) s.tbl, ldActive := false, ldCh := ch, ldFrame := encodeFrame thr,
      ldIdx := BitVec.ofNat 8 (loadWrites s.par), moves := .command w :: rest, rsp := some 0#32,
      responses := s.responses ++ [0#32] } := by
  refine (runSteps_succ (step_load hm ha hi he) _).trans ((runSteps_finishes_load (.inr ⟨w, rest, rfl⟩) rfl
    (Nat.zero_add (loadWrites s.par))).trans ?_)
  simp [loadWritten, finishLoad, respond, State.quiet, State.taking, beginLoad, foldl_loadWrite_range, loadTable]

/-- A SEND from Idle with no move after it: the transfer is started and left alone. -/
theorem BlockInv.runSteps_send_settles {s : State} (h : BlockInv s) {ch : Channel}
    (hm : s.moves = [.command (encode (.send ch))]) (ha : s.ldActive = false) (hi : s.inited = true)
    (he : enabled s.par s.cfg ch = true) (hr : s.rem = 0) :
    ∃ t, runSteps (tableLen s.par + 1) s = .next t ∧ Quiescent t ∧ t.moves = [] ∧ t.tbl = s.tbl ∧
      t.responses = s.responses ++ [0#32] ∧
      t.out = s.out ++ deliveries (s.cfg.dstOf ch) s.tbl (tableOf s.par ch) 0 (tableLen s.par) := by
  have ⟨⟨_, hgap, _⟩, _⟩ := h
  have hlen := toNat_ofNat_tableLen hgap
  have hsent := ((h.quiet.taking []).startTransfer hi he).respond .ok 0
  obtain ⟨t, hrun, hquiet, -, hmoves, htbl, hresp, hout⟩ := hsent.runSteps_settles rfl (by simpa using ha)
  simp only [respond_rem, startTransfer_rem, taking_par, quiet_par, hlen] at hrun
  refine ⟨t, (runSteps_succ (step_send hm ha hi he hr) _).trans hrun, hquiet, hmoves, by simpa using htbl,
    by simpa using hresp, ?_⟩
  simpa [-BitVec.toNat_ofNat, hlen, toNat_ofNat_tableOf] using hout

/-! ### The statements -/

/-- Settles O39: the SEND starts the transfer, each move between is one step that leaves the memory, and the last DRAIN delivers
the last entry. -/
theorem unracedTransferDeliversTheTable : Obligations.UnracedTransferDeliversTheTable := by
  intro s ch ms rest h ha hi he hr hloads hcount hm
  have hstart := Sending.start h ha hi he .ok 0 (ms ++ .drain :: rest)
  obtain ⟨u, hrun, hmoves, hutbl, hu⟩ := hstart.runSteps_loadsNothing (by simpa using ha) (by omega) rfl hloads
  simp only [respond_tbl, startTransfer_tbl, taking_tbl, quiet_tbl] at hutbl
  obtain ⟨v, hdrain, hrest, hv⟩ := (hu.quiet.taking rest).drainStep (by omega)
  rw [Nat.zero_add, hcount] at hv
  have hdone := hv.rem
  refine ⟨v, ?_, hrest, by bv_omega, (drainStep_tbl hdrain).trans hutbl, hv.out⟩
  calc runSteps (ms.length + 1 + 1) s
    _ = runSteps (ms.length + 1) _ := runSteps_succ (step_send hm ha hi he hr) _
    _ = runSteps 1 u := runSteps_add hrun 1
    _ = .next v := runSteps_one ((step_drain hmoves).trans hdrain)

/-- Settles O42: the LOAD in progress ends first, in at most K + 1 steps, and then the transfer is left alone. -/
theorem transmittingIsFollowedByIdle : Obligations.TransmittingIsFollowedByIdle := by
  intro s h hm
  cases ha : s.ldActive with
  | false =>
    obtain ⟨t, hrun, hquiet, hrem, hmoves, htbl, -, hout⟩ := h.runSteps_settles hm ha
    exact ⟨_, t, by omega, hrun, hquiet, hrem, by simp [hout, deliveries], hmoves, fun _ => htbl⟩
  | true =>
    obtain ⟨n, hn⟩ := Nat.exists_eq_add_of_le (h.ldIdx_le ha)
    have hfinish := runSteps_finishes_load (.inl hm) ha hn.symm
    have hinv := runSteps_keeps (fun _ _ => step_keeps_blockInv) h hfinish
    obtain ⟨t, hrun, hquiet, hrem, hmoves, -, -, hout⟩ := hinv.runSteps_settles hm rfl
    refine ⟨n + 1 + s.rem.toNat, t, by omega, (runSteps_add hfinish _).trans hrun, hquiet, hrem, ?_, hmoves, nofun⟩
    simp [hout, deliveries, loadWritten]

/-- Settles O43: the SEND waits for the LOAD, and starts the transfer of the loaded table, which is left alone. -/
theorem safePatternDeliversTheFrame : Obligations.SafePatternDeliversTheFrame := by
  intro s ch thr h ha hi he hr hm
  have hloaded := runSteps_load_then_command hm ha hi he
  have hinv := runSteps_keeps (fun _ _ => step_keeps_blockInv) h hloaded
  obtain ⟨t, hrun, hquiet, hmoves, htbl, hresp, hout⟩ := hinv.runSteps_send_settles rfl rfl hi he hr
  have hcount : loadWrites s.par + tableLen s.par + 3 = loadWrites s.par + 1 + 1 + (tableLen s.par + 1) := by omega
  refine ⟨t, ?_, hquiet, hmoves, by simpa using hresp, htbl, hout⟩
  rw [hcount]
  exact (runSteps_add hloaded _).trans hrun

/-- Settles O36: neither operation is enabled. -/
theorem movesWithNoStepChangeNothing : Obligations.MovesWithNoStepChangeNothing := by
  refine fun s rest => ⟨fun hm hoff => ?_, fun hm ha => ?_⟩
  · have hdisabled : s.drainEnabled = false := by
      rw [← Bool.not_eq_true, drainEnabled_iff]
      rintro ⟨hen, hr⟩
      rcases hoff with hen' | hr'
      · simp [hen] at hen'
      · exact hr hr'
    exact (step_drain hm).trans (drainStep_disabled (s := s.quiet.taking rest) hdisabled)
  · exact (step_advance hm).trans (loadStep_idle (s := s.quiet.taking rest) ha)

end Sys2Proof.Machine
